-- ==== Sys2Proof/Word.lean ====
section
/-! DEFINITION. Word.lean: the word types of the module (R10, R11) and the shape of its sparse tables. -/
namespace Sys2Proof

/-- One byte of a store (R10). -/
abbrev Byte := BitVec 8
/-- One steward word, one FP32 lane, one 32-bit register field. -/
abbrev W32 := BitVec 32
/-- One register (R11), or one of the four parts of a command word (R37). -/
abbrev W64 := BitVec 64
/-- One accumulator element in exact mode (R119). -/
abbrev W96 := BitVec 96
/-- One command word (R37). -/
abbrev W256 := BitVec 256

/-- A table with a default per key: only the entries that differ from the default are listed,
keys strictly rising, so that equal tables are equal lists. -/
abbrev SMap (α : Type) := List (Nat × α)

end Sys2Proof
end

