-- ==== Sys2Proof/Syntax.lean ====
section
/-! DEFINITION. Syntax.lean: the commands of the block, one constructor per row of the table of operations and events,
with the operands that name the unit they fall on and what comes from outside. -/
namespace Sys2Proof

/-- Global core index, 1024 × gy + gx (R9). -/
abbrev CoreId := Fin 1048576
/-- A cluster of the module: 256 × field + cluster number (R9). -/
abbrev CluId := Fin 16384
/-- Field ID, 8 × fy + fx (R9). -/
abbrev FieldId := Fin 64
/-- Link number: 0 to 39 Aelto, 40 to 47 service (R3). -/
abbrev LinkId := Fin 48

/-- The engines that take commands from queues (R36). -/
inductive EngineId where
  | matrix | vector | move | send
  deriving DecidableEq, Repr

/-- What the ECC pipeline finds in a granule (R321). -/
inductive Ecc where
  | clean | corrected | uncorrectable
  deriving DecidableEq, Repr

/-- Who makes an access, with its identifier within the class (R457 to R459): boot core, application core, host port,
service-link queue group, remote module (tensor link), debug port, compiled task (its core). -/
inductive Master where
  | boot
  | app (core : Fin 4)
  | host
  | group (g : Fin 32)
  | remote (link : Fin 40)
  | debug
  | compiled (task : Fin 4)
  deriving DecidableEq, Repr

/-- A cell as it is received (R381): what its header says, its rows, and whether its CRC passes. -/
structure Cell where
  /-- kind: empty, first transmission or replay -/
  empty : Bool
  replay : Bool
  lch : Fin 64
  seq : Fin 65536
  gen : Fin 16
  /-- cumulative acknowledgment and negative acknowledgment of the reverse direction: frame (low 4 bits), position -/
  ack : Option (Fin 16 × Fin 1920)
  nak : Option (Fin 16 × Fin 1920)
  /-- slip announcement: origin, low 15 bits of the effective frame -/
  slip : Option (Fin 32768 × Fin 32768)
  /-- data rows carried, 32 bytes each, at most 32 -/
  rows : List (List Byte)
  good : Bool
  deriving DecidableEq, Repr

/-- A frame header with a good CRC as it is received (R379). Times are in 1/256 ns. -/
structure Header where
  frame : Nat
  tTx : Nat
  tEcho : Nat
  turn : Nat
  slips : Nat
  /-- a spare-in request for a lane that this module transmits on -/
  spareIn : Option (Fin 34)
  depth : Fin 256
  serial : W64
  domain : BitVec 16
  x : Fin 32
  y : Fin 32
  z : Fin 32
  link : Fin 64
  /-- versions 2.0 and 1.2 offered -/
  v20 : Bool
  v12 : Bool
  /-- management payload, at most 2,048 bytes -/
  mgmt : List Byte
  /-- physical lane on which the receiver finds each transmitter lane, none where it is dead (R373) -/
  lanes : List (Option (Fin 34))
  /-- codewords corrected and uncorrectable since the last header (R403) -/
  corrected : Nat
  uncorrected : Nat
  deriving DecidableEq, Repr

/-- A capture buffer of the partner, which its firmware sends for the comparison of R450 to R452: level, field, the buffer's
entries at levels 1 and 2, the entries of the write log at level 3. -/
structure TwinCap where
  level : Nat
  field : Nat
  digests : List Nat
  log : List (List Byte)
  deriving DecidableEq, Repr

/-- A twin record (R448): step, image identity, seed, 64 field digests; or a capture of that step. -/
structure TwinRec where
  step : Nat
  image : Nat
  seed : Nat
  digests : List Nat
  capture : Option TwinCap := none
  deriving DecidableEq, Repr

/-- What stage 1 meets on its way through the steps of R520. -/
structure Bringup where
  /-- the store reaches its charge target in time (step 1) -/
  charged : Bool
  /-- fields whose rail, repair writes or limits fail (steps 2, 3) -/
  rails : List FieldId
  /-- channels that fail training (step 4), in the order found -/
  channels : List (FieldId × Fin 32)
  /-- fields whose clock or crossings fail (steps 5, 6) -/
  clocks : List FieldId
  /-- faulty Garnet segments (step 7): line, or 8 for the spare -/
  segments : List (FieldId × Fin 9)
  /-- bad cores found by the pattern of step 8: logical row, physical column -/
  cores : List (FieldId × Fin 128 × Fin 129)
  /-- fields with any other failure of step 8 -/
  patterns : List FieldId
  /-- fields whose zero-fill fails (step 9) -/
  fills : List FieldId
  deriving DecidableEq, Repr

/-- What the input stage and the store's sensors measure in a microsecond (R484, R489, R501): input voltage in mV, current
in 0.1 A, power in W; means of the input power over 100 µs, 10 ms and 100 ms in W; store voltage in 10 mV; energy that has
entered the store in µJ, and the module in mJ; and whether the synthesizer is locked and the rails of every field that is not
fenced are good (R356). -/
structure PowerSample where
  vin : BitVec 16
  iin : BitVec 16
  pin : BitVec 16
  mean : BitVec 16
  mean10 : BitVec 16
  mean100 : BitVec 16
  vStore : BitVec 16
  store : Int
  energy : Nat
  ready : Bool
  deriving DecidableEq, Repr

/-- The commands and events of the module: one constructor per row of the table, in the table's order. Where a row
happens of itself in the hardware, its constructor is the event; what is measured or received from outside is an operand. -/
inductive Instr where
  /-- ISSUE_WORD (R47): The sequencer considers one command word per cycle. If the word's wait is absent or met, it applies the checks of R48 and issues the word whole: slots enter their queues, at-issue signal, GE_SUB, phase mark and loop field take effect. -/
  | issueWord (c : CoreId)
  /-- COMMAND_BEGIN (R50): A queued command begins in its engine once the previous command's last input beat has passed, and frees its queue entry. -/
  | commandBegin (c : CoreId) (u : EngineId)
  /-- COMPLETION_SIGNAL (R54): A command completes and its completion signal increments the named counter in its completion cycle. -/
  | completionSignal (c : CoreId) (u : EngineId)
  /-- WAIT_TIMEOUT (R55): An unmet wait reaches the end of its horizon, and the core faults with the word's tag. -/
  | waitTimeout (c : CoreId)
  /-- DEADLINE_MISS (R56): Field Quartz time passes a waiting word's deadline. The core raises a non-fatal event once, and the wait continues. -/
  | deadlineMiss (c : CoreId)
  /-- LINIT (R57): Loads a loop counter with loop_arg. -/
  | linit (c : CoreId)
  /-- LINITR (R57): Loads a loop counter from CORE_LOOPINITn. -/
  | linitr (c : CoreId)
  /-- LBACK (R57): Decrements a non-zero loop counter and branches back, or falls through. -/
  | lback (c : CoreId)
  /-- JUMP (R57): The next word is loop_arg, counted from the task base. -/
  | jump (c : CoreId)
  /-- END (R58): The task ends. The engines complete queued commands and the core enters STOPPED. -/
  | endI (c : CoreId)
  /-- DECISION_POINT (R60): A dp word issues and the sequencer enters DRAIN, with an optional overlay load. -/
  | decisionPoint (c : CoreId)
  /-- DP_ARRIVAL (R60): Once drained, the core enters HELD and reports its arrival to the steward. -/
  | dpArrival (c : CoreId)
  /-- OVERLAY_LANDED (R63): An overlay load from stacked memory completes into the task's instruction range. -/
  | overlayLanded (c : CoreId)
  /-- REDIRECT (R61): The steward's redirect reaches a HELD core. The core takes its entry and confirms or cancels provisional fills. -/
  | redirect (c : CoreId)
  /-- STEP_BOUNDARY (R251): An sb word issues and the core stops issue until the realign completes. -/
  | stepBoundary (c : CoreId)
  /-- BARRIER_ARRIVAL (R259): A bar_en word raises the core's arrival on a Garnet line. -/
  | barrierArrival (c : CoreId)
  /-- CORE_CTL (R69): A start write arms a core in RESET or STOPPED at an entry for the next module start pulse. -/
  | coreCtl (m : Master) (c : CoreId) (v : W64)
  /-- MODULE_START_PULSE (R363): At the armed Quartz time every field begins cycle 0, and armed cores and stewards start. -/
  | moduleStartPulse
  /-- FETCH_ADVANCE (R71): The fetch engine advances one word, follows loops and executes fetch-side commands, unless it is held by a stop cause. -/
  | fetchAdvance (c : CoreId)
  /-- RFILL (R44): Reads granules or a tile from stacked memory into the next ring slot. -/
  | rfill (c : CoreId)
  /-- RGATHER (R318): Checks all indices, then reads the indexed granules into the next ring slot. -/
  | rgather (c : CoreId)
  /-- RPULL (R44): Copies a tile of a neighbouring core into the next ring slot. -/
  | rpull (c : CoreId)
  /-- FILL_LANDED (R70): The last row of a ring fill lands and the fill counter is incremented, unless the increment is withheld or deferred. -/
  | fillLanded (c : CoreId) (task : Fin 4)
  /-- TCOPY (R44): Copies tile-store rows, optionally transposing a whole tile. -/
  | tcopy (c : CoreId)
  /-- MPUT (R80): Writes granules from tile-store rows to stacked memory, and completes on the last acknowledgment. -/
  | mput (c : CoreId)
  /-- MSCATTER (R319): Writes granules to indexed stacked-memory addresses after checking the indices. -/
  | mscatter (c : CoreId)
  /-- MSEND (R81): Sends tile-store rows as one message on a send channel. -/
  | msend (c : CoreId)
  /-- RPOP (R72): Releases the oldest filled ring slots. -/
  | rpop (c : CoreId)
  /-- WLOAD (R159): Kind 0b00: loads a B block from the tile store into the shadow, and may place it on the conveyor. -/
  | wload (c : CoreId)
  /-- WLOAD_CONVEYOR (R173): Kind 0b01: loads the shadow from the block standing in the core's conveyor register. -/
  | wloadConveyor (c : CoreId)
  /-- WLOAD_SCALES (R159): Kind 0b10: writes two rows of A scales into the scale buffer. -/
  | wloadScales (c : CoreId)
  /-- WLOAD_SERIAL (R159): Kind 0b11: loads a serial container B block into the shadow. -/
  | wloadSerial (c : CoreId)
  /-- MSTREAM (R160): Streams A blocks through both arrays against the latched B block into accumulator blocks. -/
  | mstream (c : CoreId)
  /-- MCLEAR (R162): Sets mode and window base of accumulator blocks and clears them. -/
  | mclear (c : CoreId)
  /-- MDRAIN (R163): Copies accumulator blocks unrounded into tile-store rows. -/
  | mdrain (c : CoreId)
  /-- MSERIAL (R164): Runs KLS-16S serial integer products in 2-bit digit steps. -/
  | mserial (c : CoreId)
  /-- VADD (R196): FP32 a + b. -/
  | vadd (c : CoreId)
  /-- VSUB (R196): FP32 a − b. -/
  | vsub (c : CoreId)
  /-- VMUL (R196): FP32 a × b. -/
  | vmul (c : CoreId)
  /-- VFMA (R196): Fused a × b + c. -/
  | vfma (c : CoreId)
  /-- VFNMA (R196): Fused c − a × b. -/
  | vfnma (c : CoreId)
  /-- VMAX (R197): IEEE maximum. -/
  | vmax (c : CoreId)
  /-- VMIN (R197): IEEE minimum. -/
  | vmin (c : CoreId)
  /-- VABS (R197): Absolute value. -/
  | vabs (c : CoreId)
  /-- VNEG (R197): Negation. -/
  | vneg (c : CoreId)
  /-- VCMPEQ (R197): Quiet compare, equal. -/
  | vcmpeq (c : CoreId)
  /-- VCMPLT (R197): Quiet compare, less than. -/
  | vcmplt (c : CoreId)
  /-- VCMPLE (R197): Quiet compare, less or equal. -/
  | vcmple (c : CoreId)
  /-- VCMPNE (R197): Quiet compare, not equal. -/
  | vcmpne (c : CoreId)
  /-- VDROP (R197): Keyed dropout: zero or a × b by the lane's draw. -/
  | vdrop (c : CoreId)
  /-- VRAND (R196): Uniform FP32 from the lane's draw. -/
  | vrand (c : CoreId)
  /-- VIADD (R196): Integer add. -/
  | viadd (c : CoreId)
  /-- VISUB (R196): Integer subtract. -/
  | visub (c : CoreId)
  /-- VIMUL (R196): Integer multiply, low 32 bits. -/
  | vimul (c : CoreId)
  /-- VAND (R196): Bitwise and. -/
  | vand (c : CoreId)
  /-- VOR (R196): Bitwise or. -/
  | vor (c : CoreId)
  /-- VXOR (R196): Bitwise xor. -/
  | vxor (c : CoreId)
  /-- VSHL (R196): Shift left. -/
  | vshl (c : CoreId)
  /-- VSHR (R196): Logical shift right. -/
  | vshr (c : CoreId)
  /-- VSRA (R196): Arithmetic shift right. -/
  | vsra (c : CoreId)
  /-- VIMAX (R196): Signed integer maximum. -/
  | vimax (c : CoreId)
  /-- VIMIN (R196): Signed integer minimum. -/
  | vimin (c : CoreId)
  /-- VPERM (R196): Lane permutation. -/
  | vperm (c : CoreId)
  /-- VTRN4 (R196): 4 × 4 lane transpose. -/
  | vtrn4 (c : CoreId)
  /-- VIOTA (R196): Writes lane index plus an immediate. -/
  | viota (c : CoreId)
  /-- VRSUM4 (R197): Pairwise-tree sum over groups of 4 lanes. -/
  | vrsum4 (c : CoreId)
  /-- VRMAX4 (R197): Pairwise-tree maximum over groups of 4 lanes. -/
  | vrmax4 (c : CoreId)
  /-- VRSUM16 (R197): Pairwise-tree sum over 16 lanes. -/
  | vrsum16 (c : CoreId)
  /-- VRMAX16 (R197): Pairwise-tree maximum over 16 lanes. -/
  | vrmax16 (c : CoreId)
  /-- VEXP2 (R208): Bit-exact exp2. -/
  | vexp2 (c : CoreId)
  /-- VLOG2 (R209): Bit-exact log2. -/
  | vlog2 (c : CoreId)
  /-- VRCP (R210): Bit-exact reciprocal. -/
  | vrcp (c : CoreId)
  /-- VRSQRT (R210): Bit-exact reciprocal square root. -/
  | vrsqrt (c : CoreId)
  /-- VTANH (R211): Bit-exact tanh. -/
  | vtanh (c : CoreId)
  /-- VSIGM (R211): Bit-exact sigmoid. -/
  | vsigm (c : CoreId)
  /-- VEXP2_PRESCALED (R206): exp2 of fma32(a, b, c). -/
  | vexp2Prescaled (c : CoreId)
  /-- VLOG2_PRESCALED (R206): log2 of fma32(a, b, c). -/
  | vlog2Prescaled (c : CoreId)
  /-- VRCP_PRESCALED (R206): Reciprocal of fma32(a, b, c). -/
  | vrcpPrescaled (c : CoreId)
  /-- VRSQRT_PRESCALED (R206): Reciprocal square root of fma32(a, b, c). -/
  | vrsqrtPrescaled (c : CoreId)
  /-- VTANH_PRESCALED (R206): tanh of fma32(a, b, c). -/
  | vtanhPrescaled (c : CoreId)
  /-- VSIGM_PRESCALED (R206): Sigmoid of fma32(a, b, c). -/
  | vsigmPrescaled (c : CoreId)
  /-- VCVT (R199): Converts between formats with rnd and sat, including rounding out of accumulators. -/
  | vcvt (c : CoreId)
  /-- VCVTP (R200): Rounds exact partials from the tile store with a given window base. -/
  | vcvtp (c : CoreId)
  /-- VMXQ (R201): Quantizes FP32 vectors into MX blocks and scale bytes. -/
  | vmxq (c : CoreId)
  /-- VMXD (R202): Dequantizes MX blocks into FP32 vectors. -/
  | vmxd (c : CoreId)
  /-- VSUMS (R213): Summary: sum of active lanes, delivered to the steward inbox. -/
  | vsums (c : CoreId)
  /-- VMAXS (R213): Summary: maximum value and its first index. -/
  | vmaxs (c : CoreId)
  /-- VCNT (R213): Summary: count of active non-zero lanes. -/
  | vcnt (c : CoreId)
  /-- VANY (R213): Summary: whether any active lane is non-zero. -/
  | vany (c : CoreId)
  /-- VFIRST (R213): Summary: first active non-zero lane index. -/
  | vfirst (c : CoreId)
  /-- SUMMARY_LANDED (R229): A summary word lands in a steward inbox entry and sets fresh, or sets lost if fresh was already set. -/
  | summaryLanded (c : CoreId)
  /-- COMBINER_ACCEPT (R99): The write combiner accepts up to two background writes, merging them or opening entries, or forcing the oldest entry ready. -/
  | combinerAccept (c : CoreId)
  /-- COMBINER_FLUSH (R100): The oldest ready combiner entry is written to its side's free write port and freed. -/
  | combinerFlush (c : CoreId)
  /-- BACKGROUND_READ (R94): A waiting background read is served in a cycle with no scheduled read on its side, in priority order. -/
  | backgroundRead (c : CoreId) (odd : Bool)
  /-- NOP (R226): Steward no-op. -/
  | nop (k : CluId)
  /-- ADD (R226): Steward add. -/
  | add (k : CluId)
  /-- SUB (R226): Steward subtract. -/
  | sub (k : CluId)
  /-- AND (R226): Steward and. -/
  | andI (k : CluId)
  /-- OR (R226): Steward or. -/
  | orI (k : CluId)
  /-- XOR (R226): Steward xor. -/
  | xor (k : CluId)
  /-- SHL (R226): Steward shift left. -/
  | shl (k : CluId)
  /-- SHR (R226): Steward logical shift right. -/
  | shr (k : CluId)
  /-- SRA (R226): Steward arithmetic shift right. -/
  | sra (k : CluId)
  /-- MUL (R226): Steward multiply, low 32 bits. -/
  | mul (k : CluId)
  /-- SLT (R226): Steward signed set-less-than. -/
  | slt (k : CluId)
  /-- SLTU (R226): Steward unsigned set-less-than. -/
  | sltu (k : CluId)
  /-- ADDI (R226): Steward add immediate. -/
  | addi (k : CluId)
  /-- ORI (R226): Steward or immediate. -/
  | ori (k : CluId)
  /-- ANDI (R226): Steward and immediate. -/
  | andi (k : CluId)
  /-- LUI (R226): Steward load upper immediate. -/
  | lui (k : CluId)
  /-- FLT (R226): Steward quiet FP32 less-than. -/
  | flt (k : CluId)
  /-- FLE (R226): Steward quiet FP32 less-or-equal. -/
  | fle (k : CluId)
  /-- FEQ (R226): Steward quiet FP32 equal. -/
  | feq (k : CluId)
  /-- LD (R226): Steward memory load. -/
  | ld (k : CluId)
  /-- ST (R226): Steward memory store. -/
  | st (k : CluId)
  /-- INBV (R230): Reads an inbox value and clears its fresh and lost bits. -/
  | inbv (k : CluId)
  /-- INBI (R226): Reads inbox fresh, lost, kind and index bits without clearing anything. -/
  | inbi (k : CluId)
  /-- TSLD (R228): Background read of a cluster core's tile-store word. -/
  | tsld (k : CluId)
  /-- TSST (R243): Posted background write of a cluster core's tile-store word. -/
  | tsst (k : CluId)
  /-- CTRINC (R228): Increments a counter of one core or of all 64 cores of the cluster. -/
  | ctrinc (k : CluId)
  /-- CTRINC_APPLY (R228): A CTRINC is applied once every earlier TSST of the steward has been accepted. -/
  | ctrincApply (k : CluId)
  /-- DPTAG (R231): Reads a core's arrival record. -/
  | dptag (k : CluId)
  /-- BEQ (R226): Steward branch if equal. -/
  | beq (k : CluId)
  /-- BNE (R226): Steward branch if not equal. -/
  | bne (k : CluId)
  /-- BLT (R226): Steward branch if signed less. -/
  | blt (k : CluId)
  /-- BGE (R226): Steward branch if signed greater or equal. -/
  | bge (k : CluId)
  /-- BLTU (R226): Steward branch if unsigned less. -/
  | bltu (k : CluId)
  /-- BGEU (R226): Steward branch if unsigned greater or equal. -/
  | bgeu (k : CluId)
  /-- JAL (R226): Steward jump and link. -/
  | jal (k : CluId)
  /-- JR (R226): Steward jump to register. -/
  | jr (k : CluId)
  /-- WAITDP (R233): The steward waits for all 64 cores to arrive at a decision point. -/
  | waitdp (k : CluId)
  /-- WAITDP_COMPLETE (R233): The last arrival becomes visible and the waiting WAITDP completes, setting mixed. -/
  | waitdpComplete (k : CluId)
  /-- DECISION_HORIZON (R233): A WAITDP horizon expires and the steward faults with WAIT_TIMEOUT. -/
  | decisionHorizon (k : CluId)
  /-- SETNX (R239): Writes next-block table entries. -/
  | setnx (k : CluId)
  /-- RELEASE (R236): Releases the cluster: clears arrived bits and sends the redirect. It waits for earlier TSST and CTRINC acceptance. -/
  | release (k : CluId)
  /-- QTIME (R226): Samples or reads the latched field Quartz time. -/
  | qtime (k : CluId)
  /-- CYC (R226): Reads the steward cycle count. -/
  | cyc (k : CluId)
  /-- NOTIFY (R226): Posts a code to CLU_NOTIFY and signals Carnelian. -/
  | notify (k : CluId)
  /-- HALT (R226): The steward enters HALTED. -/
  | halt (k : CluId)
  /-- CLU_CTL (R222): A start write arms a steward at a start word for the next module start pulse. -/
  | cluCtl (m : Master) (k : CluId) (v : W64)
  /-- CLU_FENCE_CTL (R246): A fence write requests a fence of one cluster. -/
  | cluFenceCtl (m : Master) (k : CluId) (v : W64)
  /-- FLD_FENCE_CTL (R28): A fence write requests a fence of a field with a cause. -/
  | fldFenceCtl (m : Master) (f : FieldId) (v : W64)
  /-- FENCE_APPLIED (R28): Within 16 cy of the write, the fence takes effect: units stop and are power-gated, ports are cut and Garnet taps are held. -/
  | fenceApplied (f : FieldId) (clu : Option (Fin 256))
  /-- GARNET_RELEASE (R260): L cycles after the last member arrives, the line releases. Member counters are incremented and arrivals cleared. -/
  | garnetRelease (n : Fin 8)
  /-- REALIGN_ARRIVAL (R251): After an sb word drains, the core raises its realign arrival on the realign line. -/
  | realignArrival (c : CoreId)
  /-- REALIGN (R254): In the realign cycle, counters take their realign-mode updates, net changes reset, and generation and step advance. -/
  | realign
  /-- REALIGN_HORIZON (R255): No realign release by the horizon, and the core raises WAIT_TIMEOUT. -/
  | realignHorizon (c : CoreId)
  /-- GARNET_RAIL (R263): A segment's rails disagree. The contribution is held at not arrived and Carnelian is signalled. -/
  | garnetRail (f : FieldId) (n : Fin 8) (spare : Bool)
  /-- GAR_FALLBACK (R264): Firmware writes a line's fallback request bit. -/
  | garFallback (m : Master) (n : Fin 8) (v : W64)
  /-- FALLBACK_SWITCH (R264): The line switches to or from central fallback counting, and held arrivals are transferred. -/
  | fallbackSwitch (n : Fin 8)
  /-- FALLBACK_RELEASE (R265): A fallback group reaches its expected count and the central block broadcasts a release. -/
  | fallbackRelease (n : Fin 8) (g : Fin 16)
  /-- DEADLOCK (R267): The watch unit sees a closed hang for 16 cycles and faults the waiting cores. -/
  | deadlock (k : CluId)
  /-- SEND_ROW_DEPARTURE (R283): The send buffer's head row departs when the slot grants its direction and a credit is held. -/
  | sendRowDeparture (c : CoreId)
  /-- ROUTER_BEAT (R279): A beat at a router input is forwarded, delivered to an arrival queue or discarded as misrouted, per the slot table. -/
  | routerBeat (c : CoreId) (dir : Fin 4) (upset : Bool)
  /-- CREDIT_RETURN (R284): A row's credit becomes usable at its sender again. -/
  | creditReturn (c : CoreId)
  /-- LANDER_TAKE (R288): A free lane takes the eligible message and checks it. -/
  | landerTake (c : CoreId) (lane : Fin 2)
  /-- ROW_LANDING (R290): A plain-channel row lands through the combiner. The last row advances wr_ptr and signals. -/
  | rowLanding (c : CoreId) (lane : Fin 2)
  /-- COMBINE_ROW (R296): A combining-channel row is read, added and written back. A full round signals the counter. -/
  | combineRow (c : CoreId)
  /-- PORT_FORWARD (R314): The cluster port forwards a waiting request to the gateway in order. -/
  | portForward (k : CluId)
  /-- GATEWAY_ADMIT (R314): The gateway admits requests into the tracker and channel queues by class and age. -/
  | gatewayAdmit (f : FieldId)
  /-- GRANULE_SERVICE (R311): A channel serves one granule in a free service slot, with ECC correction. -/
  | granuleService (f : FieldId) (ch : Fin 32) (ecc : Ecc)
  /-- REFRESH_SLOT (R311): A reserved refresh slot occurs on each channel. -/
  | refreshSlot (f : FieldId)
  /-- SCRUB_SLOT (R323): The scrub engine reads, corrects or poisons the granule at its position. -/
  | scrubSlot (f : FieldId) (ch : Fin 32) (ecc : Ecc)
  /-- READ_RETURN (R313): Read data lands at its requester. -/
  | readReturn (f : FieldId)
  /-- WRITE_ACK (R313): A write acknowledgment reaches the core's memory queue. -/
  | writeAck (f : FieldId)
  /-- GW_PROBE_SIZE (R329): Writing the probe size starts a count of in-flight requests overlapping a range. -/
  | gwProbeSize (m : Master) (f : FieldId) (v : W64)
  /-- PROBE_DONE (R329): The probe finishes and its result becomes valid. -/
  | probeDone (f : FieldId)
  /-- REF_LOSS (R339): The selected reference loses qualification. The PLL enters holdover and switches if the other input is qualified. -/
  | refLoss (b : Bool)
  /-- REF_QUALIFIED (R338): An input has held frequency with no missing edge for 1 ms and becomes qualified. -/
  | refQualified (b : Bool)
  /-- REF_SWITCH_DONE (R339): A reference switch completes. -/
  | refSwitchDone
  /-- CLOCK_CHECK_FAIL (R343): A field's received clock fails its check, and the field is fenced with cause 0x04. -/
  | clockCheckFail (f : FieldId)
  /-- DROOP_DETECT (R344): A droop detector fires and requests a stretch of its field. The governor request may follow. -/
  | droopDetect (f : FieldId) (clu : Fin 256)
  /-- HUSH_STOP (R353): At a hush cycle with req set, every field stops, and shadows, frequency and source switches are applied. -/
  | hushStop (n : Fin 8)
  /-- IDLE_HUSH (R351): Writing CLK_HUSH_CTL.idle takes an idle hush within 1 µs. -/
  | idleHush (m : Master)
  /-- HUSH_RESTART (R356): Once the synthesizer is locked and rails are good, the restart wave runs, with phase reset and field time reload. -/
  | hushRestart
  /-- RAIL_TIMEOUT (R357): Rail-good has not returned 1 ms into a hush, and the module stays stopped. -/
  | railTimeout
  /-- HUSH_ABORT (R350): Writing abort ends a forced stop. Cores not in RESET, STOPPED or FENCED enter FAULTED. -/
  | hushAbort (m : Master)
  /-- QTZ_SET (R359): Loads the Quartz counter and field times while every core is in RESET. -/
  | qtzSet (m : Master) (v : W64)
  /-- CLK_START (R363): Arms the module start pulse at a future Quartz time. -/
  | clkStart (m : Master) (v : W64)
  /-- QTZ_STEER (R359): The servo advances the Quartz counter by 0 or 2 on one edge. -/
  | qtzSteer (double : Bool)
  /-- QTZ_SOURCE_SWITCH (R360): The servo falls back on loss of qualification, or moves up to a better source after 2 s. -/
  | qtzSourceSwitch (src : Fin 3) (qualified : Bool)
  /-- LINK_EN (R375): Enabling a link starts training through its steps. -/
  | linkEn (m : Master) (l : Fin 40) (v : W64)
  /-- LINK_RETRAIN (R399): Writing retrain starts a retraining of the link. -/
  | linkRetrain (m : Master) (l : Fin 40)
  /-- LINK_FORCE_DOWN (R397): Writing down takes the link DOWN with cause firmware. -/
  | linkForceDown (m : Master) (l : Fin 40)
  /-- LINK_RETRY (R375): Every 100 ms a DOWN link with auto set retrains. -/
  | linkRetry (l : Fin 40)
  /-- TRAINING_STEP_TIMEOUT (R375): A training step exceeds its limit, and training fails. -/
  | trainingStepTimeout (l : Fin 40) (step : Fin 7)
  /-- FRAME_START (R378): A frame begins at its Quartz time, and pending spare-ins take effect. -/
  | frameStart
  /-- FRAME_HEADER_RX (R395): A received frame header updates identity, delay, offset, exchange lock, slips and the management payload. -/
  | frameHeaderRx (l : Fin 40) (frac : Fin 256) (h : Header)
  /-- SILENT_TIMEOUT (R397): Five frames pass with no good header, and the link goes DOWN with cause silent. -/
  | silentTimeout (l : Fin 40)
  /-- CELL_PREFETCH (R384): At a position's prefetch point, the port checks readiness and reads a ring tile, or sends an empty cell. -/
  | cellPrefetch (l : Fin 40) (n : Nat) (g : Fin 240) (i : Fin 8)
  /-- CELL_RX (R386): A received cell is CRC-checked and held. Acks produce receipts and NAKs are recorded. -/
  | cellRx (l : Fin 40) (n : Nat) (p : Fin 1920) (c : Cell)
  /-- CELL_RELEASE (R386): At t_rel a held cell's rows enter the port core's arrival queue, or the cell is forwarded. -/
  | cellRelease (l : Fin 40) (q : Fin 64)
  /-- REPLAY (R391): 25 ns after decoding a NAK, the sender replays the cell in a free reserve position. -/
  | replay (l : Fin 40) (n : Nat) (p : Fin 1920)
  /-- SLIP_ANNOUNCE (R393): A slip announcement is learned and propagated on every UP link. -/
  | slipAnnounce (origin : Fin 32768) (frame : Fin 32768)
  /-- SLIP_FRAME (R394): At the boundary before the effective frame, a 2,000 ns slip frame is inserted. -/
  | slipFrame
  /-- LANE_FAILURE (R374): A lane loses signal or errs too often, and a spare-in is requested. -/
  | laneFailure (l : Fin 40) (lane : Fin 34)
  /-- LINK_DOWN (R398): A link goes DOWN. Cells complete with LINK_LOST receipts and port cores fault. -/
  | linkDown (l : Fin 40)
  /-- STEP_TOKEN_RX (R411): A step token is taken at release time and may raise the module's barrier level, up to domain release. -/
  | stepTokenRx (l : Fin 40)
  /-- TIMED_RELEASE (R417): At LNK_STEP_NEXT the module applies its domain release and advances the next time. -/
  | timedRelease
  /-- PTP_MESSAGE (R428): An IEEE 1588 message updates the slave servo offset. -/
  | ptpMessage (offset : BitVec 32)
  /-- CKPT_RELEASE (R440): Writing release ends a checkpoint hold, and the realign proceeds. -/
  | ckptRelease (m : Master) (v : W64)
  /-- MOD_STEP_SET (R442): Sets CORE_STEP of every core while all are in RESET. -/
  | modStepSet (m : Master) (v : W64)
  /-- TWIN_RECORD_SEND (R448): Carnelian reads the field digests and sends a twin record to the partner. -/
  | twinRecordSend
  /-- TWIN_RECORD_RX (R449): A partner's twin record is compared with the module's own for the same step. -/
  | twinRecordRx (r : TwinRec)
  /-- TWIN_SILENCE (R449): No partner record arrives for silent_ms, and a kind-2 divergence is raised. -/
  | twinSilence
  /-- RDMA_READ (R465): Executes a checked RDMA READ through a window. -/
  | rdmaRead (j : Fin 8) (qpn : BitVec 24) (rkey : W32) (va : W64) (len : W32)
  /-- RDMA_WRITE (R465): Executes a checked RDMA WRITE through a window. -/
  | rdmaWrite (j : Fin 8) (qpn : BitVec 24) (rkey : W32) (va : W64) (data : List Byte)
  /-- RDMA_UNSUPPORTED (R464): A SEND, atomic or memory-window binding is answered with NAK Invalid Request. -/
  | rdmaUnsupported (j : Fin 8)
  /-- MGMT_DATAGRAM (R467): A management datagram from a listed peer is delivered to firmware, or discarded. -/
  | mgmtDatagram (j : Fin 4) (port : BitVec 16) (v6 : Bool) (addr : W32) (data : List Byte)
  /-- HOST_BAR_ACCESS (R468): A host BAR access is checked as class 3 and performed, refused or retried on BUSY. -/
  | hostBarAccess (bar2 : Bool) (off : Fin 0x100000000) (len : Nat) (w : Option (List Byte)) (waited : Bool)
  /-- MAILBOX_DOORBELL (R469): A tail write posts commands to a mailbox, which firmware executes in order. -/
  | mailboxDoorbell (w : Master) (mb : Fin 4) (v : W64)
  /-- HELLO (R470): Opens a session after version and feature negotiation. -/
  | hello (mb : Fin 4)
  /-- BYE (R472): Closes a session. -/
  | bye (mb : Fin 4)
  /-- IMAGE_COMMIT (R522): Verifies a staged runtime image and starts it. -/
  | imageCommit (mb : Fin 4) (starts : Bool)
  /-- UPDATE (R528): Begins a live update of the runtime image. -/
  | updateI (mb : Fin 4)
  /-- UPDATE_HANDOVER (R528): At the restart from the update's hush, the old image writes the handover record and the new image starts. -/
  | updateHandover (done : Option (Fin 2001))
  /-- UPDATE_FAILBACK (R530): Takeover fails or times out, and the old image resumes. -/
  | updateFailback (unreadable : Bool)
  /-- LOAD (R524): Verifies, places and writes a program image. -/
  | loadI (mb : Fin 4)
  /-- START (R526): Ramps power, arms the cores and writes CLK_START. -/
  | startI (mb : Fin 4)
  /-- STOP (R527): Requests a hush, then resets the cores and frees the instance's allocations. -/
  | stopI (mb : Fin 4)
  /-- ALLOC (R327): Allocates a stacked-memory range for an owner. -/
  | allocI (mb : Fin 4)
  /-- FREE (R328): Frees an allocation after handle, owner and pending checks. -/
  | freeI (mb : Fin 4)
  /-- QP_SETUP (R472): Sets up an RDMA queue pair. -/
  | qpSetup (mb : Fin 4)
  /-- QP_DESTROY (R472): Destroys an RDMA queue pair. -/
  | qpDestroy (mb : Fin 4)
  /-- WIN_OPEN (R466): Opens an RDMA window with a new generation. -/
  | winOpen (mb : Fin 4)
  /-- WIN_CLOSE (R466): Closes an RDMA window and waits for in-flight requests to drain. -/
  | winClose (mb : Fin 4)
  /-- FENCE (R472): Mailbox command that fences a field or a cluster. -/
  | fenceI (mb : Fin 4)
  /-- CHECKPOINT (R472): Mailbox command that arms or releases a checkpoint hold. -/
  | checkpoint (mb : Fin 4)
  /-- FAULTS (R543): Returns fault records from a sequence number. -/
  | faults (mb : Fin 4)
  /-- TELEMETRY (R472): Returns the SMBus telemetry values. -/
  | telemetry (mb : Fin 4)
  /-- HOST_LINK_DOWN (R473): PCIe link-down closes the sessions and discards their responses. -/
  | hostLinkDown
  /-- IDENT (R474): SMBus block read of the module identity. -/
  | ident (pec : Bool)
  /-- STATE (R474): SMBus read of the state byte. -/
  | stateI (pec : Bool)
  /-- VIN (R474): SMBus read of the input voltage. -/
  | vin (pec : Bool)
  /-- IIN (R474): SMBus read of the input current. -/
  | iin (pec : Bool)
  /-- PIN (R474): SMBus read of the input power. -/
  | pin (pec : Bool)
  /-- PCAP (R474): SMBus read of the power cap. -/
  | pcap (pec : Bool)
  /-- ENERGY (R474): SMBus read of the input energy. -/
  | energy (pec : Bool)
  /-- HOLDUP (R474): SMBus read of the stored energy. -/
  | holdup (pec : Bool)
  /-- T_IN (R474): SMBus read of the coolant inlet temperature. -/
  | tIn (pec : Bool)
  /-- T_OUT (R474): SMBus read of the coolant outlet temperature. -/
  | tOut (pec : Bool)
  /-- T_MAX (R474): SMBus read of the hottest field temperature. -/
  | tMax (pec : Bool)
  /-- ALERT_STATUS (R474): SMBus read of the alert bits. -/
  | alertStatus (pec : Bool)
  /-- ALERT_CLEAR (R474): SMBus write clearing alert bits. -/
  | alertClear (pec : Bool) (v : BitVec 16)
  /-- ALERT_MASK (R474): SMBus read or write of the alert mask. -/
  | alertMask (pec : Bool) (v : Option (BitVec 16))
  /-- SMBUS_REFRESH (R474): Every 1 ms Carnelian refreshes the SMBus values. -/
  | smbusRefresh
  /-- DIP (R483): An input out of range for 10 µs disconnects the input stage and enters brace. -/
  | dip (vin : BitVec 16)
  /-- BRACE_EXIT (R500): The input stays in range for 1 ms. Rails return and the store recharges before the ramp. -/
  | braceExit
  /-- SHUTDOWN (R500): brace_max_ms passes or usable energy is exhausted, and every converter stops. -/
  | shutdown
  /-- SHAPER_TICK (R489): Each microsecond the shaper updates pacing, ghost steps for the floor, and the reserve stop. -/
  | shaperTick (x : PowerSample)
  /-- RAMP_RELEASE (R491): The draw reaches the release level, or ramp_max passes, and issue resumes. -/
  | rampRelease
  /-- THERMAL_LOOP (R504): Every 1 ms firmware applies throttle steps, THERMAL_LIMIT and thermal fences. -/
  | thermalLoop (temps : List (BitVec 16)) (tIn tOut : BitVec 16)
  /-- THERMAL_TRIP (R504): A field at 115 °C triggers a hardware shutdown. -/
  | thermalTrip (f : FieldId) (temp : BitVec 16)
  /-- ENERGY_TICK (R497): Each microsecond the field adds its activity energy to its counters. -/
  | energyTick (f : FieldId)
  /-- ENERGY_LOG (R498): After each step firmware appends an energy log record. -/
  | energyLog
  /-- GAUGE_CALIBRATION (R502): At a full charge firmware calibrates the store capacitance and the gauge. -/
  | gaugeCalibration (charge : BitVec 16)
  /-- DISCHARGE (R503): The discharge switch closes when input is absent for 150 ms, at shutdown, or above 60 J. -/
  | discharge (present : Bool) (vStore : BitVec 16)
  /-- PWR_GOV_REQ (R496): Writing req makes a governor request. -/
  | pwrGovReq (m : Master) (v : W64)
  /-- MATE_DETECT (R586): The mate-detect loop closes for 50 ms, or breaks, and the input stage starts or stops drawing. -/
  | mateDetect (closed : Bool)
  /-- CAR_WDOG_KICK (R511): A core kicks its own watchdog. -/
  | carWdogKick (m : Master) (n : Fin 5) (v : W64)
  /-- WATCHDOG_EXPIRED (R512): A watchdog expires, leading to a module reset or a fail-back. -/
  | watchdogExpired (n : Fin 5)
  /-- CORE_RESET (R514): Writing go returns every core and steward to RESET within one forced stop. -/
  | coreReset (m : Master) (v : W64)
  /-- MODULE_RESET (R513): A module reset by key write, watchdog, JTAG or retry restarts the boot chain. -/
  | moduleReset (m : Master) (v : W64)
  /-- POWER_ON (R513): The input comes into range and a power-on start begins. -/
  | powerOn
  /-- ROM_BOOT (R517): After PLL lock the ROM verifies and starts a stage-1 slot. -/
  | romBoot
  /-- WAFER_BRINGUP (R520): Stage 1 brings up the wafer step by step, then opens the host port. -/
  | waferBringup (x : Bringup)
  /-- RUNTIME_START_TIMEOUT (R522): The runtime image does not reply within 100 ms, and the monitor makes a module reset. -/
  | runtimeStartTimeout
  /-- FAULT_COLLECT (R540): A fault record is queued by the field collector and logged by Carnelian. -/
  | faultCollect (src : Option FieldId) (good : Bool)
  /-- FAULT_POLL (R537): Every 1 ms Carnelian polls each field's collector. -/
  | faultPoll (f : FieldId) (answered : Bool)
  /-- TRACE_WRITE (R550): The trace unit writes queued records to its ring in stacked memory. -/
  | traceWrite (f : FieldId)
  /-- BYPASS (R552): JTAG bypass. -/
  | bypass (tdi : Bool)
  /-- IDCODE (R552): JTAG IDCODE read. -/
  | idcode
  /-- SAMPLE_PRELOAD (R552): JTAG boundary sample or preload. -/
  | samplePreload (pins shift : List Bool)
  /-- EXTEST (R552): JTAG drives the boundary register. -/
  | extest (pins shift : List Bool)
  /-- DEBUG_ACCESS (R553): JTAG register and memory access as class 6. -/
  | debugAccess (mem : Bool) (a : Fin 0x1000000000000) (w : Option (List Byte))
  /-- FLASH (R553): Holds the boot core and connects the flash to JTAG. -/
  | flash (dbg stay : Bool) (off : Fin 0x4000000) (data : List Byte)
  /-- SCAN (R553): Scan test of the wafer. -/
  | scan (dbg : Bool)
  /-- RESET (R552): JTAG-initiated module reset with cause 4. -/
  | resetI
  /-- REGISTER_WRITE (R15): A write to a register with no row of its own acts per its access codes and active-only fields. -/
  | registerWrite (m : Master) (a : Fin 0x1000000000000) (v : W64)
  /-- IMEM_WRITE (R67): An instruction-store write is accepted whole only in allowed core states. -/
  | imemWrite (m : Master) (c : CoreId) (off : Fin 0x2000) (data : List Byte)
  /-- ACC_WRITE (R145): Another master writes accumulator element bytes. -/
  | accWrite (m : Master) (c : CoreId) (off : Fin 0x4000) (data : List Byte)
  /-- VTILE_WRITE (R187): Another master writes vector-tile lanes. -/
  | vtileWrite (m : Master) (c : CoreId) (off : Fin 0x1000) (data : List Byte)
  /-- STEWARD_MEM_WRITE (R223): Another master writes steward memory in an allowed state. -/
  | stewardMemWrite (m : Master) (k : CluId) (off : Fin 0x4000) (data : List Byte)
  /-- TILE_STORE_WRITE (R93): Another master writes the tile store as a background write. -/
  | tileStoreWrite (m : Master) (c : CoreId) (off : Fin 49152) (data : List Byte)
  /-- STACKED_MEMORY_WRITE (R579): A master writes stacked memory. Partial granules are merged by read-modify-write. -/
  | stackedMemoryWrite (m : Master) (a : Fin 0x10000000000) (data : List Byte)
  /-- BACK_PENDING (R340): The preferred reference, or a better Quartz source, has stayed qualified for 2 s; back_pending is set and the switch waits for the next hush. -/
  | backPending (quartzSource : Bool)
  /-- NO_HUSH_WITHIN_1_S (R527): A STOP or UPDATE that requested a hush sees none within 1 s; STOP takes a forced stop and resets the cores, and UPDATE is refused with reason 0x0E. -/
  | noHushWithin1S
  /-- INPUT_CLASSIFIED (R483): The input enters or leaves the 46–48 V or 60–63 V band for 10 µs, and SMBus alert bit 0 or 1 is set or cleared while the module keeps running. -/
  | inputClassified (low high : Bool)
  /-- PERST (R592): PERST# is asserted or released, holding the host port in reset or letting it enumerate and serve BAR accesses. -/
  | perst (asserted : Bool)
  /-- SERVICE_LINK_DOWN (R466): An 800 Gb/s service link loses or regains link; SVC_ETH_STATUS.up changes and its queue pairs are kept. -/
  | serviceLinkDown (j : Fin 8) (up : Bool)
  /-- ENERGY_SCALE (R498): Every 100 ms firmware compares measured input energy with the summed field energies plus loss, and sets the scale for the next 100 ms. -/
  | energyScale
  deriving DecidableEq, Repr

end Sys2Proof
end

