-- ==== Sys2Proof/Decode.lean ====
section
/-! DEFINITION. Decode.lean: commands that a word spells by the table's bits. The table gives no row any bits (every
row's "fields" is empty): commands come as events, register writes and messages, so no word spells one. -/
namespace Sys2Proof

/-- The command that a word of the table spells: none, since the table gives no row any bits. -/
def decodeTableWord (_nbits _w : Nat) : Option Instr := none

end Sys2Proof
end

