-- ==== Sys2Proof/Machine/NumFmt.lean ====
section
/-! DEFINITION. Machine/NumFmt.lean: the number formats of chapter 4 (R111 to R116, R126 to R138, R600): every
encoding, every rounding, exact partials, MX quantization and the random source. -/
namespace Sys2Proof.Machine

/-! ## Flags -/

/-- The flags that one operation sets in CORE_ARITH_FLAGS (R147). -/
structure ArithFlags where
  inexact : Bool := false
  underflow : Bool := false
  overflow : Bool := false
  divzero : Bool := false
  invalid : Bool := false
  winLow : Bool := false
  winHigh : Bool := false
  deriving DecidableEq, Repr

/-- No flag. -/
def flags0 : ArithFlags := {}

/-- The flags of two operations together (they are sticky). -/
def orFlags (a b : ArithFlags) : ArithFlags :=
  { inexact := a.inexact || b.inexact, underflow := a.underflow || b.underflow,
    overflow := a.overflow || b.overflow, divzero := a.divzero || b.divzero,
    invalid := a.invalid || b.invalid, winLow := a.winLow || b.winLow, winHigh := a.winHigh || b.winHigh }

/-- The bits of CORE_ARITH_FLAGS that a set of flags stands for (R147). -/
def flagBits (f : ArithFlags) : Nat :=
  f.inexact.toNat + 2 * f.underflow.toNat + 4 * f.overflow.toNat + 8 * f.divzero.toNat + 16 * f.invalid.toNat
    + 256 * f.winLow.toNat + 512 * f.winHigh.toNat

/-! ## Formats -/

/-- The formats of R111. -/
inductive Fmt where
  | e4m3 | e5m2 | int8 | e3m2 | e2m3 | e2m1 | bf16 | fp16 | fp32 | int32 | int32w | exact
  deriving DecidableEq, Repr

/-- The format a 4-bit code names; codes 0xC to 0xF are reserved (R111). -/
def fmtOfCode : Nat → Option Fmt
  | 0 => some .e4m3 | 1 => some .e5m2 | 2 => some .int8 | 3 => some .e3m2 | 4 => some .e2m3 | 5 => some .e2m1
  | 6 => some .bf16 | 7 => some .fp16 | 8 => some .fp32 | 9 => some .int32 | 10 => some .int32w | 11 => some .exact
  | _ => none

/-- Which special encodings a floating-point format has (R113). -/
inductive Specials where
  | none | e4m3 | ieee
  deriving DecidableEq, Repr

/-- The parameters of a floating-point format (R112). -/
structure FmtParams where
  ebits : Nat
  mbits : Nat
  bias : Nat
  emin : Int
  emax : Int
  maxsig : Nat
  specials : Specials
  deriving DecidableEq, Repr

/-- The table of R112. The integer formats and the exact partial have no row there. -/
def fmtParams : Fmt → Option FmtParams
  | .e4m3 => some ⟨4, 3, 7, -6, 8, 14, .e4m3⟩
  | .e5m2 => some ⟨5, 2, 15, -14, 15, 7, .ieee⟩
  | .e3m2 => some ⟨3, 2, 3, -2, 4, 7, .none⟩
  | .e2m3 => some ⟨2, 3, 1, 0, 2, 15, .none⟩
  | .e2m1 => some ⟨2, 1, 1, 0, 2, 3, .none⟩
  | .bf16 => some ⟨8, 7, 127, -126, 127, 255, .ieee⟩
  | .fp16 => some ⟨5, 10, 15, -14, 15, 2047, .ieee⟩
  | .fp32 => some ⟨8, 23, 127, -126, 127, 16777215, .ieee⟩
  | .int8 | .int32 | .int32w | .exact => none

/-- Parameters of FP32 (R112). -/
def fp32Params : FmtParams := ⟨8, 23, 127, -126, 127, 16777215, .ieee⟩

/-- Bits of one element (R111). -/
def fmtBits : Fmt → Nat
  | .e4m3 | .e5m2 | .int8 => 8
  | .e3m2 | .e2m3 => 6
  | .e2m1 => 4
  | .bf16 | .fp16 => 16
  | .fp32 | .int32 | .int32w => 32
  | .exact => 96

/-- A value with its sign, before rounding: (−1)^s × m × 2^e, an infinity, or NaN (every NaN alike, R113). -/
inductive FVal where
  | nan
  | inf (s : Bool)
  | fin (s : Bool) (m : Nat) (e : Int)
  deriving DecidableEq, Repr

/-- The integer a two's-complement pattern of `n` bits stands for. -/
def signedOf (n x : Nat) : Int :=
  if x % 2 ^ n < 2 ^ (n - 1) then (x % 2 ^ n : Nat) else ((x % 2 ^ n : Nat) : Int) - (2 ^ n : Nat)

/-- The two's-complement pattern of `n` bits of an integer. -/
def patternOf (n : Nat) (x : Int) : Nat := (x % (2 ^ n : Nat)).toNat

/-- An integer as a value. -/
def intVal (x : Int) : FVal := .fin (x < 0) x.natAbs 0

/-- Decodes a floating-point pattern (R112, R113). -/
def decodeFp (p : FmtParams) (x : Nat) : FVal :=
  let s := x / 2 ^ (p.ebits + p.mbits) % 2 = 1
  let ef := x / 2 ^ p.mbits % 2 ^ p.ebits
  let mf := x % 2 ^ p.mbits
  let top := 2 ^ p.ebits - 1
  if p.specials = .ieee ∧ ef = top then (if mf = 0 then .inf s else .nan)
  else if p.specials = .e4m3 ∧ ef = top ∧ mf = 2 ^ p.mbits - 1 then .nan
  else if ef = 0 then .fin s mf (1 - (p.bias : Int) - p.mbits)
  else .fin s (2 ^ p.mbits + mf) ((ef : Int) - p.bias - p.mbits)

/-- Decodes one element of a format other than exact (R87, R111). -/
def decodeElem (f : Fmt) (x : Nat) : FVal :=
  match fmtParams f with
  | some p => decodeFp p x
  | none => intVal (signedOf (fmtBits f) x)

/-- The canonical NaN of a floating-point format (R113). -/
def nanCode (p : FmtParams) : Nat :=
  match p.specials with
  | .ieee => (2 ^ p.ebits - 1) * 2 ^ p.mbits + 2 ^ (p.mbits - 1)
  | _ => 2 ^ (p.ebits + p.mbits) - 1

/-- Infinity of a sign (R113). -/
def infCode (p : FmtParams) (s : Bool) : Nat :=
  s.toNat * 2 ^ (p.ebits + p.mbits) + (2 ^ p.ebits - 1) * 2 ^ p.mbits

/-- The largest finite value of a sign (R112, R128). -/
def maxCode (p : FmtParams) (s : Bool) : Nat :=
  s.toNat * 2 ^ (p.ebits + p.mbits) + (p.emax + p.bias).toNat * 2 ^ p.mbits + p.maxsig % 2 ^ p.mbits

/-! ## Rounding -/

/-- The rounding modes of R127. -/
inductive Rnd where
  | rne | rz | sr | rna
  deriving DecidableEq, Repr

/-- The mode a 2-bit field names (R127). -/
def rndOf : Nat → Rnd
  | 0 => .rne | 1 => .rz | 2 => .sr | _ => .rna

/-- Position of the highest set bit plus one, 0 for 0 (R130). -/
def bitlen (x : Nat) : Nat := if x = 0 then 0 else Nat.log2 x + 1

/-- Drops `k` low bits of a magnitude in the mode given, with draw `r` for SR; the second part says whether any
dropped bit was set (R127). For `k ≤ 0` nothing is dropped. -/
def roundShift (m : Nat) (k : Int) (rnd : Rnd) (r : Nat) : Nat × Bool :=
  if k ≤ 0 then (m * 2 ^ (-k).toNat, false)
  else
    let n := k.toNat
    let sig := m / 2 ^ n
    let rem := m % 2 ^ n
    let up := match rnd with
      | .rne => decide (2 * rem > 2 ^ n) || (decide (2 * rem = 2 ^ n) && decide (sig % 2 = 1))
      | .rz => false
      | .sr => decide (r < rem * 2 ^ 32 / 2 ^ n)
      | .rna => decide (2 * rem ≥ 2 ^ n)
    if rem = 0 then (sig, false) else (sig + up.toNat, true)

/-- The reference rounding of R127 to R130: (−1)^s × m × 2^e to a floating-point format, with the flags of R139
and R600. Tininess is detected after rounding, with the exponent range unbounded (R139). -/
def encodeFp (p : FmtParams) (s : Bool) (m : Nat) (e : Int) (rnd : Rnd) (sat : Bool) (r : Nat) : Nat × ArithFlags :=
  let sgn := s.toNat * 2 ^ (p.ebits + p.mbits)
  if m = 0 then (sgn, flags0)
  else
    let lead : Int := (bitlen m : Int) - 1 + e
    let q : Int := (if lead < p.emin then p.emin else lead) - p.mbits
    let (sig0, inex) := roundShift m (q - e) rnd r
    let carry := sig0 ≥ 2 ^ (p.mbits + 1)
    let sig := if carry then sig0 / 2 else sig0
    let q := if carry then q + 1 else q
    let free := roundShift m (lead - p.mbits - e) rnd r
    let tiny := decide (lead + (if free.1 ≥ 2 ^ (p.mbits + 1) then 1 else 0) < p.emin)
    if sig = 0 then (sgn, { inexact := inex, underflow := inex && tiny })
    else if q + p.mbits > p.emax ∨ (q + p.mbits = p.emax ∧ sig > p.maxsig) then
      let code :=
        if sat ∨ rnd = .rz ∨ p.specials = .none then maxCode p s
        else if p.specials = .ieee then infCode p s
        else nanCode p
      (code, { inexact := true, overflow := true })
    else
      let ef := if sig ≥ 2 ^ p.mbits then (q + p.mbits + p.bias).toNat else 0
      (sgn + ef * 2 ^ p.mbits + sig % 2 ^ p.mbits, { inexact := inex, underflow := inex && tiny })

/-- Rounds a value to an integer and saturates it to `n` two's-complement bits (R130, R137, R600). A NaN gives 0. -/
def encodeInt (n : Nat) (v : FVal) (rnd : Rnd) (r : Nat) : Nat × ArithFlags :=
  let hi : Int := (2 ^ (n - 1) : Nat) - 1
  let lo : Int := -((2 ^ (n - 1) : Nat) : Int)
  match v with
  | .nan => (0, { invalid := true })
  | .inf s => (patternOf n (if s then lo else hi), { invalid := true })
  | .fin s m e =>
    let (mag, inex) := roundShift m (-e) rnd r
    let x : Int := if s then -(mag : Int) else mag
    if x > hi then (patternOf n hi, { overflow := true })
    else if x < lo then (patternOf n lo, { overflow := true })
    else (patternOf n x, { inexact := inex })

/-- INT32W: the low 32 bits of the floor of the value (R130). -/
def encodeInt32w (v : FVal) : Nat × ArithFlags :=
  match v with
  | .nan => (0, { invalid := true })
  | .inf _ => (0, { invalid := true })
  | .fin s m e =>
    let x : Int := if s then -(m : Int) else m
    let y : Int := if e ≥ 0 then x * (2 ^ e.toNat : Nat) else x / ((2 ^ (-e).toNat : Nat) : Int)
    (patternOf 32 y, flags0)

/-- A value to a target format (R128 to R130, R136, R137, R600). -/
def encodeVal (f : Fmt) (v : FVal) (rnd : Rnd) (sat : Bool) (r : Nat) : Nat × ArithFlags :=
  match fmtParams f with
  | some p =>
    match v with
    | .nan => (nanCode p, flags0)
    | .inf s =>
      if p.specials = .ieee then (infCode p s, flags0)
      else (if sat then maxCode p s else nanCode p, { invalid := true })
    | .fin s m e => encodeFp p s m e rnd sat r
  | none =>
    match f with
    | .int8 => encodeInt 8 v rnd r
    | .int32 => encodeInt 32 v rnd r
    | _ => encodeInt32w v

/-! ## Exact arithmetic on values -/

/-- The signed integer a finite value is at exponent `e0`, where `e0 ≤ e`. -/
def scaledInt (s : Bool) (m : Nat) (e e0 : Int) : Int :=
  let x : Int := (m * 2 ^ (e - e0).toNat : Nat)
  if s then -x else x

/-- The exact product of two values (R115, R116). -/
def mulVal : FVal → FVal → FVal
  | .nan, _ => .nan
  | _, .nan => .nan
  | .inf s, .inf t => .inf (s != t)
  | .inf s, .fin t m _ => if m = 0 then .nan else .inf (s != t)
  | .fin s m _, .inf t => if m = 0 then .nan else .inf (s != t)
  | .fin s m e, .fin t n g => .fin (s != t) (m * n) (e + g)

/-- The exact sum of a list of values, by the rules of R118: NaN, then infinities, then the exact sum; an exact zero
is −0 only if every addend is −0. -/
def sumVals (l : List FVal) : FVal :=
  let hasNan := l.any fun v => match v with | .nan => true | _ => false
  let pinf := l.any fun v => match v with | .inf false => true | _ => false
  let ninf := l.any fun v => match v with | .inf true => true | _ => false
  if hasNan || (pinf && ninf) then .nan
  else if pinf then .inf false
  else if ninf then .inf true
  else
    let e0 := l.foldl (fun (acc : Option Int) v => match v with
      | .fin _ m e => if m = 0 then acc else match acc with
        | none => some e
        | some a => some (if e < a then e else a)
      | _ => acc) none
    match e0 with
    | none =>
      let allNeg := l.all fun v => match v with | .fin true _ _ => true | _ => false
      .fin (allNeg && !l.isEmpty) 0 0
    | some e0 =>
      let t := l.foldl (fun (acc : Int) v => match v with
        | .fin s m e => if m = 0 then acc else acc + scaledInt s m e e0
        | _ => acc) 0
      .fin (decide (t < 0)) t.natAbs e0

/-- Compares two finite values: the sign of x − y. -/
def cmpFin (s : Bool) (m : Nat) (e : Int) (t : Bool) (n : Nat) (g : Int) : Int :=
  let e0 := if e < g then e else g
  (scaledInt s m e e0 - scaledInt t n g e0).sign

/-- Compares two values; none if either is NaN. Infinities compare by sign. -/
def cmpVal : FVal → FVal → Option Int
  | .nan, _ => none
  | _, .nan => none
  | .inf s, .inf t => some (if s = t then 0 else if s then -1 else 1)
  | .inf s, .fin _ _ _ => some (if s then -1 else 1)
  | .fin _ _ _, .inf t => some (if t then 1 else -1)
  | .fin s m e, .fin t n g => some (cmpFin s m e t n g)

/-! ## Exact partials -/

/-- The void partial, −2^95 (R132). -/
def voidPartial : W96 := BitVec.ofNat 96 (2 ^ 95)

/-- The value of an exact element A × 2^(wb − 32) (R119). -/
def exactVal (a : W96) (wb : Int) : FVal :=
  let x := a.toInt
  .fin (decide (x < 0)) x.natAbs (wb - 32)

/-- The value of a partial read with window base wb: void is NaN (R132). -/
def partialVal (a : W96) (wb : Int) : FVal := if a = voidPartial then .nan else exactVal a wb

/-- The sum of two partials: modulo 2^96, void if either is void (R132). -/
def addPartial (a b : W96) : W96 := if a = voidPartial ∨ b = voidPartial then voidPartial else a + b

/-! ## Block scaling -/

/-- The value of a scaled element: scale byte 0xFF is NaN, otherwise × 2^(x − 127) (R114). -/
def scaleVal (v : FVal) (x : Nat) : FVal :=
  if x = 255 then .nan
  else match v with
    | .fin s m e => .fin s m (e + (x : Int) - 127)
    | w => w

/-- The exponent of the leading bit of a non-zero finite value (R138). -/
def leadExp (m : Nat) (e : Int) : Int := (bitlen m : Int) - 1 + e

/-- MX quantization of a block (R138): the scale byte, the elements and the flags. `draws` gives element k its draw. -/
def mxQuantize (p : FmtParams) (xs : List FVal) (rnd : Rnd) (draws : List Nat) : Nat × List Nat × ArithFlags :=
  let special := xs.any fun v => match v with | .fin _ _ _ => false | _ => true
  if special then (255, xs.map fun _ => 0, { invalid := true })
  else
    let top := xs.foldl (fun (acc : Option Int) v => match v with
      | .fin _ m e => if m = 0 then acc else match acc with
        | none => some (leadExp m e)
        | some a => some (if leadExp m e > a then leadExp m e else a)
      | _ => acc) none
    let x : Int := match top with
      | none => -127
      | some l => let y := l - p.emax; if y < -127 then -127 else if y > 127 then 127 else y
    let out := (xs.zip draws).map fun (v, r) => match v with
      | .fin s m e => encodeFp p s m (e - x) rnd true r
      | _ => (0, flags0)
    ((x + 127).toNat, out.map (·.1), out.foldl (fun f o => orFlags f o.2) flags0)

/-! ## The random source -/

/-- mix64 of R133. -/
def mix64 (x : W64) : W64 :=
  let x := x ^^^ (x >>> 31)
  let x := x * 0x9E3779B97F4A7C15#64
  let x := x ^^^ (x >>> 29)
  let x := x * 0xD6E8FEB86659FD93#64
  x ^^^ (x >>> 32)

/-- The draw of R133: seed, step, global core index, draw counter. -/
def draw (seed step : W64) (core : Nat) (rc : W32) : Nat :=
  let h := mix64 (seed ^^^ step)
  let h := mix64 (h ^^^ ((BitVec.ofNat 64 core <<< 32) ||| rc.zeroExtend 64))
  (h >>> 32).toNat

end Sys2Proof.Machine
end

