-- ==== Sys2Proof/Machine/CmdWord.lean ====
section
/-! DEFINITION. Machine/CmdWord.lean: the command word (R37 to R46, R57, R59), the command slots and their illegal
encodings (R43 to R46, R159 to R165, R192). -/
namespace Sys2Proof.Machine

/-- Bits [hi:lo] of a number. -/
def bitsOf (x hi lo : Nat) : Nat := x / 2 ^ lo % 2 ^ (hi + 1 - lo)

/-- Bit i of a number. -/
def bitOf (x i : Nat) : Bool := x / 2 ^ i % 2 = 1

/-- Replaces bits [hi:lo] of a number. -/
def setBitsOf (x hi lo v : Nat) : Nat :=
  x / 2 ^ (hi + 1) * 2 ^ (hi + 1) + v % 2 ^ (hi + 1 - lo) * 2 ^ lo + x % 2 ^ lo

/-! ## Word fields (R38 to R41) -/

/-- Bits [hi:lo] of a command word. -/
def wf (w : W256) (hi lo : Nat) : Nat := bitsOf w.toNat hi lo
/-- Bit i of a command word. -/
def wb (w : W256) (i : Nat) : Bool := bitOf w.toNat i

/-- ctl.dp (R39). -/
def wDp (w : W256) : Bool := wb w 251
/-- ctl.hp (R39). -/
def wHp (w : W256) : Bool := wb w 250
/-- ctl.sb (R39). -/
def wSb (w : W256) : Bool := wb w 249
/-- ctl.bar_en (R39). -/
def wBarEn (w : W256) : Bool := wb w 248
/-- ctl.bar_line (R39). -/
def wBarLine (w : W256) : Nat := wf w 247 245
/-- loop_op of a word with dp = 0 (R57). -/
def wLoopOp (w : W256) : Nat := wf w 243 241
/-- loop_lvl (R57). -/
def wLoopLvl (w : W256) : Nat := wf w 240 239
/-- loop_arg (R57). -/
def wLoopArg (w : W256) : Nat := wf w 238 228
/-- dp_hint_en of a word with dp = 1 (R59). -/
def wHintEn (w : W256) : Bool := wb w 243
/-- dp_hint (R59). -/
def wHint (w : W256) : Nat := wf w 242 239
/-- ovl_en (R59). -/
def wOvlEn (w : W256) : Bool := wb w 238
/-- ovl_idx (R59). -/
def wOvlIdx (w : W256) : Nat := wf w 237 235
/-- phase mark (R38). -/
def wPhase (w : W256) : Nat := wf w 227 220
/-- tag (R38). -/
def wTag (w : W256) : BitVec 20 := BitVec.ofNat 20 (wf w 219 200)
/-- w_en (R40). -/
def wWaitEn (w : W256) : Bool := wb w 199
/-- w_ctr (R40). -/
def wWaitCtr (w : W256) : Nat := wf w 198 194
/-- w_cond (R40). -/
def wWaitCond (w : W256) : Nat := wf w 193 192
/-- w_val (R40). -/
def wWaitVal (w : W256) : Nat := wf w 191 176
/-- w_hz (R40). -/
def wWaitHz (w : W256) : Nat := wf w 175 173
/-- w_dl (R40). -/
def wWaitDl (w : W256) : Bool := wb w 172
/-- s_en (R41). -/
def wSigEn (w : W256) : Bool := wb w 171
/-- s_ctr (R41). -/
def wSigCtr (w : W256) : Nat := wf w 170 166
/-- s_when (R41). -/
def wSigWhen (w : W256) : Nat := wf w 165 164
/-- The increment, s_inc + 1 (R41). -/
def wSigInc (w : W256) : Nat := wf w 163 160 + 1
/-- The matrix slot, 48 bits (R38). -/
def wMatrix (w : W256) : Nat := wf w 159 112
/-- The vector slot, 56 bits (R38). -/
def wVector (w : W256) : Nat := wf w 111 56
/-- The move slot, 56 bits (R38). -/
def wMove (w : W256) : Nat := wf w 55 0

/-- A wait is met (R52). -/
def waitMet (ctr val : BitVec 16) (cond : Nat) : Bool :=
  match cond with
  | 0 => decide ((ctr - val).toNat < 0x8000)
  | 1 => decide (ctr = val)
  | 2 => decide ((ctr - val).toNat < 0x8000)
  | _ => false

/-! ## The move slot (R44) -/

/-- A gate of a fetch-side command: counter and value (R44, R71). -/
abbrev Gate := Option (Nat × Nat)

/-- A decoded move-slot command (R44). -/
inductive MvCmd where
  | empty
  | rfill (gate : Gate) (adr granM1 ofs : Nat)
  | rgather (gate : Gate) (adr idxRow cntM1 : Nat)
  | rpull (gate : Gate) (dir srcTile : Nat)
  | tcopy (src dst rowsM1 : Nat) (transpose : Bool)
  | mput (src adr granM1 ofs : Nat)
  | mscatter (src adr idxRow cntM1 : Nat)
  | msend (src rowsM1 chan : Nat)
  | rpop (cntM1 : Nat)
  deriving DecidableEq, Repr

/-- The gate fields shared by the fetch-side opcodes. -/
def gateOf (x : Nat) : Gate := if bitOf x 51 then some (bitsOf x 50 46, bitsOf x 45 30) else none

/-- Decodes a move slot; none for an illegal encoding (R44 to R46): a reserved opcode, a non-zero reserved bit, a
descriptor on the wrong side, transpose = 1 without its conditions. An empty slot lists no field, so all its bits are reserved. -/
def decodeMove (x : Nat) : Option MvCmd :=
  match bitsOf x 55 52 with
  | 0x0 => if bitsOf x 51 0 = 0 then some .empty else none
  | 0x1 => if bitsOf x 29 25 < 16 then some (.rfill (gateOf x) (bitsOf x 29 25) (bitsOf x 24 21) (bitsOf x 20 0)) else none
  | 0x2 => if bitsOf x 29 25 < 16 ∧ bitsOf x 9 0 = 0 then
      some (.rgather (gateOf x) (bitsOf x 29 25) (bitsOf x 24 14) (bitsOf x 13 10)) else none
  | 0x3 => if bitsOf x 21 0 = 0 then some (.rpull (gateOf x) (bitsOf x 29 28) (bitsOf x 27 22)) else none
  | 0x8 =>
    let s := bitsOf x 51 41
    let d := bitsOf x 40 30
    let n := bitsOf x 29 25
    if bitsOf x 23 0 = 0 ∧ (bitOf x 24 → n = 31 ∧ s % 32 = 0 ∧ d % 32 = 0) then some (.tcopy s d n (bitOf x 24)) else none
  | 0x9 => if 16 ≤ bitsOf x 40 36 ∧ bitsOf x 10 0 = 0 then
      some (.mput (bitsOf x 51 41) (bitsOf x 40 36) (bitsOf x 35 32) (bitsOf x 31 11)) else none
  | 0xA => if 16 ≤ bitsOf x 40 36 ∧ bitsOf x 20 0 = 0 then
      some (.mscatter (bitsOf x 51 41) (bitsOf x 40 36) (bitsOf x 35 25) (bitsOf x 24 21)) else none
  | 0xB => if bitsOf x 29 0 = 0 then some (.msend (bitsOf x 51 41) (bitsOf x 40 36) (bitsOf x 35 30)) else none
  | 0xC => if bitsOf x 47 0 = 0 then some (.rpop (bitsOf x 51 48)) else none
  | _ => none

/-- Is the command one the fetch engine executes (opcodes 0x1 to 0x7)? -/
def isFetchSide : MvCmd → Bool
  | .rfill .. | .rgather .. | .rpull .. => true
  | _ => false

/-! ## The matrix slot (R159 to R165) -/

/-- Operand groups of R150. -/
inductive OpGroup where
  | fp8 | int8 | fp4 | fp6 | half | serial
  deriving DecidableEq, Repr

/-- The group of an operand format. -/
def groupOf : Fmt → OpGroup
  | .e4m3 | .e5m2 => .fp8
  | .int8 => .int8
  | .e2m1 => .fp4
  | .e3m2 | .e2m3 => .fp6
  | _ => .half

/-- Two-side groups (R150). -/
def twoSide : OpGroup → Bool
  | .fp6 | .half | .serial => true
  | _ => false

/-- Is the format block-scaled (FP4 and FP6 groups)? -/
def isMx (f : Fmt) : Bool := f = .e3m2 ∨ f = .e2m3 ∨ f = .e2m1

/-- A decoded matrix command. -/
inductive MxCmd where
  | empty
  | wload (bfmt : Fmt) (src : Nat) (half : Bool) (scRow scIdx reach seq : Nat)
  | wloadConveyor (seq : Nat)
  | wloadScales (src scRow : Nat)
  | wloadSerial (src reach seq : Nat)
  | mstream (afmt : Fmt) (n accBase src : Nat) (transpose swap : Bool) (sbase : Nat)
  | mclear (blk cnt : Nat) (exact : Bool) (wb : Nat)
  | mdrain (blk cnt : Nat) (exact : Bool) (dst : Nat)
  | mserial (wa wb : Nat) (sa sb : Bool) (n accBase src : Nat) (swap : Bool)
  deriving DecidableEq, Repr

/-- A format code 0x0 to 0x7. -/
def opFmt (n : Nat) : Fmt := (fmtOfCode (n % 8)).getD .e4m3

/-- Decodes a WLOAD by its kind (R159, R165). Bits are those of the slot, so [153:112] of the word are [41:0] here. -/
def decodeWload (x : Nat) : Option MxCmd :=
  let bf := bitsOf x 39 37
  let src := bitsOf x 36 26
  let half := bitOf x 25
  let sc := bitsOf x 24 14
  let idx := bitsOf x 13 9
  let reach := bitsOf x 8 6
  let seq := bitsOf x 5 2
  if bitsOf x 1 0 ≠ 0 then none
  else match bitsOf x 41 40 with
    | 0 =>
      let f := opFmt bf
      let small := f = .e4m3 ∨ f = .e5m2 ∨ f = .int8 ∨ f = .e2m1
      if (half = true ∧ ¬ small) ∨ (isMx f = false ∧ (sc ≠ 0 ∨ idx ≠ 0)) then none
      else some (.wload f src half sc idx reach seq)
    | 1 => if bf = 0 ∧ src = 0 ∧ half = false ∧ sc = 0 ∧ idx = 0 ∧ reach = 0 then some (.wloadConveyor seq) else none
    | 2 => if bf = 0 ∧ half = false ∧ idx = 0 ∧ reach = 0 ∧ seq = 0 then some (.wloadScales src sc) else none
    | _ => if bf = 0 ∧ half = false ∧ sc = 0 ∧ idx = 0 then some (.wloadSerial src reach seq) else none

/-- Decodes a matrix slot; none for an illegal encoding (R43, R46, R159 to R165). -/
def decodeMatrix (x : Nat) : Option MxCmd :=
  match bitsOf x 47 42 with
  | 0 => if bitsOf x 41 0 = 0 then some .empty else none
  | 1 => decodeWload x
  | 2 =>
    let f := opFmt (bitsOf x 41 39)
    let n := bitsOf x 38 34 + 1
    let ab := bitsOf x 33 29
    let src := bitsOf x 28 18
    let tr := bitOf x 17
    let sb := bitsOf x 15 11
    if bitsOf x 10 0 ≠ 0 ∨ (tr = true ∧ isMx f = true) ∨ ab + n > 32 ∨ (sb ≠ 0 ∧ isMx f = false) ∨
        ((twoSide (groupOf f) = true ∨ tr = true) ∧ src % 32 + n > 32) then none
    else some (.mstream f n ab src tr (bitOf x 16) sb)
  | 3 =>
    let b := bitsOf x 41 36
    let c := bitsOf x 35 30
    if bitsOf x 20 0 ≠ 0 ∨ b + c > 63 then none else some (.mclear b (c + 1) (bitOf x 29) (bitsOf x 28 21))
  | 4 =>
    let b := bitsOf x 41 36
    let c := bitsOf x 35 33
    if bitsOf x 20 0 ≠ 0 ∨ b + c > 63 then none else some (.mdrain b (c + 1) (bitOf x 32) (bitsOf x 31 21))
  | 5 =>
    let n := bitsOf x 31 27 + 1
    let ab := bitsOf x 26 22
    let src := bitsOf x 21 11
    if bitsOf x 9 0 ≠ 0 ∨ ab + n > 32 ∨ src % 32 + n > 32 then none
    else some (.mserial (bitsOf x 41 38 + 1) (bitsOf x 37 34 + 1) (bitOf x 33) (bitOf x 32) n ab src (bitOf x 10))
  | _ => none

/-! ## The vector slot (R192, R196) -/

/-- The six special functions in opcode order (R206). -/
inductive SpecOp where
  | exp2 | log2 | rcp | rsqrt | tanh | sigm
  deriving DecidableEq, Repr

/-- The vector opcodes of R196 (0x0E is VDROP, and so on), in the table's order. -/
inductive VOp where
  | vadd | vsub | vmul | vfma | vfnma | vmax | vmin | vabs | vneg | vcmpeq | vcmplt | vcmple | vcmpne | vdrop | vrand
  | viadd | visub | vimul | vand | vor | vxor | vshl | vshr | vsra | vimax | vimin | vperm | vtrn4 | viota
  | vrsum4 | vrmax4 | vrsum16 | vrmax16 | spec (f : SpecOp) (pre : Bool)
  | vcvt | vcvtp | vmxq | vmxd | vsums | vmaxs | vcnt | vany | vfirst
  deriving DecidableEq, Repr

/-- Opcode to operation (R43, R196, R206); every opcode not listed is reserved. -/
def vopOf : Nat → Option VOp
  | 0x01 => some .vadd | 0x02 => some .vsub | 0x03 => some .vmul | 0x04 => some .vfma | 0x05 => some .vfnma
  | 0x06 => some .vmax | 0x07 => some .vmin | 0x08 => some .vabs | 0x09 => some .vneg
  | 0x0A => some .vcmpeq | 0x0B => some .vcmplt | 0x0C => some .vcmple | 0x0D => some .vcmpne
  | 0x0E => some .vdrop | 0x0F => some .vrand
  | 0x10 => some .viadd | 0x11 => some .visub | 0x12 => some .vimul
  | 0x13 => some .vand | 0x14 => some .vor | 0x15 => some .vxor
  | 0x16 => some .vshl | 0x17 => some .vshr | 0x18 => some .vsra | 0x19 => some .vimax | 0x1A => some .vimin
  | 0x20 => some .vperm | 0x21 => some .vtrn4 | 0x22 => some .viota
  | 0x23 => some .vrsum4 | 0x24 => some .vrmax4 | 0x25 => some .vrsum16 | 0x26 => some .vrmax16
  | 0x40 => some (.spec .exp2 false) | 0x41 => some (.spec .log2 false) | 0x42 => some (.spec .rcp false)
  | 0x43 => some (.spec .rsqrt false) | 0x44 => some (.spec .tanh false) | 0x45 => some (.spec .sigm false)
  | 0x48 => some (.spec .exp2 true) | 0x49 => some (.spec .log2 true) | 0x4A => some (.spec .rcp true)
  | 0x4B => some (.spec .rsqrt true) | 0x4C => some (.spec .tanh true) | 0x4D => some (.spec .sigm true)
  | 0x60 => some .vcvt | 0x61 => some .vcvtp | 0x62 => some .vmxq | 0x63 => some .vmxd
  | 0x70 => some .vsums | 0x71 => some .vmaxs | 0x72 => some .vcnt | 0x73 => some .vany | 0x74 => some .vfirst
  | _ => none

/-- The fields of a vector slot (R192). -/
structure VxCmd where
  op : VOp
  dst : Nat
  da : Nat
  db : Nat
  dc : Nat
  n : Nat
  msk : Nat
  dm : Nat
  rnd : Rnd
  sat : Bool
  bImm : Bool
  imm : BitVec 16
  deriving DecidableEq, Repr

/-- Lane types of R193. -/
inductive LaneTy where
  | fp | int | raw
  deriving DecidableEq, Repr

/-- Does the operation take sources a, b, c (R196)? -/
def vSrcs : VOp → Bool × Bool × Bool
  | .vadd | .vsub | .vmul | .vmax | .vmin | .vcmpeq | .vcmplt | .vcmple | .vcmpne | .vdrop => (true, true, false)
  | .viadd | .visub | .vimul | .vand | .vor | .vxor | .vshl | .vshr | .vsra | .vimax | .vimin | .vperm => (true, true, false)
  | .vfma | .vfnma => (true, true, true)
  | .vrand | .viota => (false, false, false)
  | .spec _ pre => (true, pre, pre)
  | _ => (true, false, false)

/-- Lane type of the sources (R196); VPERM takes raw a and INT32 b. -/
def vLaneIn : VOp → LaneTy
  | .viadd | .visub | .vimul | .vshl | .vshr | .vsra | .vimax | .vimin | .viota => .int
  | .vand | .vor | .vxor | .vperm | .vtrn4 => .raw
  | _ => .fp

/-- Lane type of the result (R196). -/
def vLaneOut : VOp → LaneTy
  | .vcmpeq | .vcmplt | .vcmple | .vcmpne => .int
  | o => vLaneIn o

/-- Does the opcode use rnd and sat (R196)? -/
def vUsesRnd : VOp → Bool
  | .vadd | .vsub | .vmul | .vfma | .vfnma | .vdrop | .vrsum4 | .vrsum16 | .vcvt | .vcvtp | .vmxq | .vmxd => true
  | _ => false

/-- Does the opcode give imm16 a use of its own, so that b_imm must be 0 (R192, R197, R200, R201, R214)? -/
def vOwnImm : VOp → Bool
  | .vdrop | .viota | .vcvtp | .vmxq | .vmxd | .vsums | .vmaxs | .vcnt | .vany | .vfirst => true
  | _ => false

/-- Is the opcode a summary (R213)? -/
def vIsSummary : VOp → Bool
  | .vsums | .vmaxs | .vcnt | .vany | .vfirst => true
  | _ => false

/-- The legality of the fields alone (R46, R192, R198, R200, R201, R214); descriptors are checked with the registers. With
b_imm = 1 the field db is not used, so it must be zero; imm16[15:8] of a VCVTP, of which R200 uses imm16[7:0], may hold
anything (DEDUCED, log 20). -/
def vFieldsLegal (c : VxCmd) : Bool :=
  let (ua, ub, uc) := vSrcs c.op
  let summ := vIsSummary c.op
  (c.msk != 3) && (ua || c.da == 0) && ((ub && !c.bImm) || c.db == 0) && (uc || c.dc == 0) && (c.msk != 0 || c.dm == 0)
    && (!c.bImm || !vOwnImm c.op)
    && (vUsesRnd c.op || (c.rnd == .rne && !c.sat))
    && (c.op != .vdrop || c.rnd != .sr)
    && (!summ || (c.dst == 0 && decide (c.imm.toNat < 4)))
    && ((c.op != .vmxq && c.op != .vmxd) || (c.msk == 0 && c.n % 2 == 0 && decide (c.imm.toNat % 32 + c.n / 2 ≤ 32)))

/-- Decodes a vector slot: none for an illegal encoding, some none for an empty slot. -/
def decodeVector (x : Nat) : Option (Option VxCmd) :=
  if bitsOf x 55 48 = 0 then (if bitsOf x 47 0 = 0 then some none else none)
  else match vopOf (bitsOf x 55 48) with
    | none => none
    | some op =>
      let c : VxCmd :=
        { op := op, dst := bitsOf x 47 44, da := bitsOf x 43 40, db := bitsOf x 39 36, dc := bitsOf x 35 32
          n := bitsOf x 31 26 + 1, msk := bitsOf x 25 24, dm := bitsOf x 23 20, rnd := rndOf (bitsOf x 19 18)
          sat := bitOf x 17, bImm := bitOf x 16, imm := BitVec.ofNat 16 (bitsOf x 15 0) }
      if vFieldsLegal c then some (some c) else none

/-! ## The word's own fields (R46) -/

/-- The word's own fields are legal (R46): reserved bits, loop and decision fields, w_cond. -/
def ownLegal (w : W256) : Bool :=
  wf w 255 252 == 0 && !wb w 244 &&
  (if wDp w then wf w 234 228 == 0 && !(wHintEn w && wOvlEn w)
   else decide (wLoopOp w ≤ 5) && ((wLoopOp w != 3 && wLoopOp w != 4) || bitsOf (wLoopArg w) 10 8 == 0)) &&
  (!wWaitEn w || wWaitCond w != 3)

/-- s_when of a signalling word names a slot that is there and is no fetch-side command (R42). -/
def sigLegal (w : W256) : Bool :=
  !wSigEn w ||
  (match wSigWhen w with
   | 0 => true
   | 1 => bitsOf (wMatrix w) 47 42 != 0
   | 2 => bitsOf (wVector w) 55 48 != 0
   | _ => decide (8 ≤ bitsOf (wMove w) 55 52))

end Sys2Proof.Machine
end

