-- ==== Sys2Proof/Machine/Tables.lean ====
section
/-! DEFINITION. Machine/Tables.lean: the tables and constants of R207, each entry the FP32 rounding of the exact real
number that R207 defines (computed once from that definition). Each table is a list of short lists. -/
namespace Sys2Proof.Machine

/-- EXP_T[j] = f32(2^(j / 64)), j = 0 to 63 (R207). -/
def tblExp2 : List (List Nat) := [
  [0x3F800000, 0x3F8164D2, 0x3F82CD87, 0x3F843A29, 0x3F85AAC3, 0x3F871F62, 0x3F88980F, 0x3F8A14D5],
  [0x3F8B95C2, 0x3F8D1ADF, 0x3F8EA43A, 0x3F9031DC, 0x3F91C3D3, 0x3F935A2B, 0x3F94F4F0, 0x3F96942D],
  [0x3F9837F0, 0x3F99E046, 0x3F9B8D3A, 0x3F9D3EDA, 0x3F9EF532, 0x3FA0B051, 0x3FA27043, 0x3FA43516],
  [0x3FA5FED7, 0x3FA7CD94, 0x3FA9A15B, 0x3FAB7A3A, 0x3FAD583F, 0x3FAF3B79, 0x3FB123F6, 0x3FB311C4],
  [0x3FB504F3, 0x3FB6FD92, 0x3FB8FBAF, 0x3FBAFF5B, 0x3FBD08A4, 0x3FBF179A, 0x3FC12C4D, 0x3FC346CD],
  [0x3FC5672A, 0x3FC78D75, 0x3FC9B9BE, 0x3FCBEC15, 0x3FCE248C, 0x3FD06334, 0x3FD2A81E, 0x3FD4F35B],
  [0x3FD744FD, 0x3FD99D16, 0x3FDBFBB8, 0x3FDE60F5, 0x3FE0CCDF, 0x3FE33F89, 0x3FE5B907, 0x3FE8396A],
  [0x3FEAC0C7, 0x3FED4F30, 0x3FEFE4BA, 0x3FF28177, 0x3FF5257D, 0x3FF7D0DF, 0x3FFA83B3, 0x3FFD3E0C]]

/-- LR[i] = f32(1 / (1 + i / 64)), i = −16 to 32, entry 0 first for i = −16 (R207). -/
def tblLR : List (List Nat) := [
  [0x3FAAAAAB, 0x3FA72F05, 0x3FA3D70A, 0x3FA0A0A1, 0x3F9D89D9, 0x3F9A90E8, 0x3F97B426, 0x3F94F209],
  [0x3F924925, 0x3F8FB824, 0x3F8D3DCB, 0x3F8AD8F3, 0x3F888889, 0x3F864B8A, 0x3F842108, 0x3F820821],
  [0x3F800000, 0x3F7C0FC1, 0x3F783E10, 0x3F74898D, 0x3F70F0F1, 0x3F6D7304, 0x3F6A0EA1, 0x3F66C2B4],
  [0x3F638E39, 0x3F607038, 0x3F5D67C9, 0x3F5A740E, 0x3F579436, 0x3F54C77B, 0x3F520D21, 0x3F4F6475],
  [0x3F4CCCCD, 0x3F4A4588, 0x3F47CE0C, 0x3F4565C8, 0x3F430C31, 0x3F40C0C1, 0x3F3E82FA, 0x3F3C5264],
  [0x3F3A2E8C, 0x3F381703, 0x3F360B61, 0x3F340B41, 0x3F321643, 0x3F302C0B, 0x3F2E4C41, 0x3F2C7692],
  [0x3F2AAAAB]]

/-- LT[i] = f32(−log2(LR[i])), i = −16 to 32 (R207). -/
def tblLT : List (List Nat) := [
  [0xBED47FCD, 0xBEC544BF, 0xBEB6587A, 0xBEA7B7DF, 0xBE995FF9, 0xBE8B4E03, 0xBE7AFEC6, 0xBE5FE33A],
  [0xBE4544C5, 0xBE2B1EE2, 0xBE116D6E, 0xBDF058D8, 0xBDBEB02F, 0xBD8DD98A, 0xBD3B9C9B, 0xBCBA1FA1],
  [0x00000000, 0x3CB73CB3, 0x3D35D690, 0x3D8759C9, 0x3DB31FB7, 0x3DDE420E, 0x3E0462C4, 0x3E195751],
  [0x3E2E00D1, 0x3E42615F, 0x3E567AEF, 0x3E6A4F70, 0x3E7DE0B5, 0x3E88983F, 0x3E92203D, 0x3E9B8925],
  [0x3EA4D3C2, 0x3EAE00D1, 0x3EB71110, 0x3EC0052D, 0x3EC8DDD3, 0x3ED19BAF, 0x3EDA3F60, 0x3EE2C97E],
  [0x3EEB3A9E, 0x3EF39355, 0x3EFBD42A, 0x3F01FED4, 0x3F060828, 0x3F0A0650, 0x3F0DF98A, 0x3F11E20E],
  [0x3F15C01A]]

/-- D[k] = f32((−1)^k / ((k + 1) × ln 2)), k = 0 to 5 (R207). -/
def tblD : List (List Nat) := [
  [0x3FB8AA3B, 0xBF38AA3B, 0x3EF6384F, 0xBEB8AA3B, 0x3E93BB63, 0xBE76384F]]

/-- RT[i] = f32(1 / (1 + (i + 0.5) / 64)), i = 0 to 63 (R207). -/
def tblRT : List (List Nat) := [
  [0x3F7E03F8, 0x3F7A232D, 0x3F76603E, 0x3F72B9D6, 0x3F6F2EB7, 0x3F6BBDB3, 0x3F6865AC, 0x3F652598],
  [0x3F61FC78, 0x3F5EE95C, 0x3F5BEB62, 0x3F5901B2, 0x3F562B81, 0x3F53680D, 0x3F50B6A0, 0x3F4E168A],
  [0x3F4B8728, 0x3F4907DA, 0x3F46980C, 0x3F443730, 0x3F41E4BC, 0x3F3FA030, 0x3F3D6910, 0x3F3B3EE7],
  [0x3F392144, 0x3F370FBB, 0x3F3509E7, 0x3F330F63, 0x3F311FD4, 0x3F2F3ADE, 0x3F2D602B, 0x3F2B8F6A],
  [0x3F29C84A, 0x3F280A81, 0x3F2655C4, 0x3F24A9CF, 0x3F23065E, 0x3F216B31, 0x3F1FD80A, 0x3F1E4CAD],
  [0x3F1CC8E1, 0x3F1B4C70, 0x3F19D723, 0x3F1868C8, 0x3F17012E, 0x3F15A025, 0x3F144581, 0x3F12F114],
  [0x3F11A2B4, 0x3F105A38, 0x3F0F177A, 0x3F0DDA52, 0x3F0CA29C, 0x3F0B7034, 0x3F0A42F8, 0x3F091AC7],
  [0x3F07F781, 0x3F06D905, 0x3F05BF37, 0x3F04A9FA, 0x3F039930, 0x3F028CC0, 0x3F01848E, 0x3F008081]]

/-- RQ[i], i = 0 to 63: f32(1 / sqrt(1 + (i + 0.5) / 32)) below 32, of twice that from 32 on (R207). -/
def tblRQ : List (List Nat) := [
  [0x3F7E05EC, 0x3F7A33F9, 0x3F768CDC, 0x3F730D8A, 0x3F6FB345, 0x3F6C7B90, 0x3F69642A, 0x3F666B02],
  [0x3F638E39, 0x3F60CC16, 0x3F5E2305, 0x3F5B9193, 0x3F59166B, 0x3F56B051, 0x3F545E22, 0x3F521ED0],
  [0x3F4FF162, 0x3F4DD4ED, 0x3F4BC89B, 0x3F49CBA2, 0x3F47DD45, 0x3F45FCD6, 0x3F4429AF, 0x3F426337],
  [0x3F40A8DE, 0x3F3EFA1C, 0x3F3D5671, 0x3F3BBD67, 0x3F3A2E8C, 0x3F38A975, 0x3F372DBF, 0x3F35BB09],
  [0x3F339F19, 0x3F30EB96, 0x3F2E565C, 0x3F2BDD46, 0x3F297E62, 0x3F2737F0, 0x3F250855, 0x3F22EE1D],
  [0x3F20E7F5, 0x3F1EF4A4, 0x3F1D130E, 0x3F1B422C, 0x3F19810C, 0x3F17CED0, 0x3F162AA9, 0x3F1493D9],
  [0x3F1309AF, 0x3F118B87, 0x3F1018C6, 0x3F0EB0E0, 0x3F0D534F, 0x3F0BFF97, 0x3F0AB544, 0x3F0973E8],
  [0x3F083B1E, 0x3F070A87, 0x3F05E1C7, 0x3F04C08B, 0x3F03A682, 0x3F029362, 0x3F0186E2, 0x3F0080C1]]

/-- TP[k] = f32 of −1/3, 2/15, −17/315, 62/2,835, −1,382/155,925 (R207). -/
def tblTP : List (List Nat) := [
  [0xBEAAAAAB, 0x3E088889, 0xBD5D0DD1, 0x3CB327A4, 0xBC11371B]]

/-- f32(ln 2) (R207). -/
def cC1 : W32 := 0x3F317218#32

/-- f32((ln 2)² / 2) (R207). -/
def cC2 : W32 := 0x3E75FDF0#32

/-- f32((ln 2)³ / 6) (R207). -/
def cC3 : W32 := 0x3D635847#32

/-- f32(log2 e) (R207). -/
def cL2E : W32 := 0x3FB8AA3B#32

/-- f32(2 × log2 e) (R207). -/
def cL2E2 : W32 := 0x4038AA3B#32

/-- Entry `i` of a table held in rows of 8. -/
def tblAt (t : List (List Nat)) (i : Nat) : W32 := BitVec.ofNat 32 ((t.getD (i / 8) []).getD (i % 8) 0)

end Sys2Proof.Machine
end

