-- ==== Sys2Proof/Machine/Fp32.lean ====
section
/-! DEFINITION. Machine/Fp32.lean: FP32 arithmetic of the vector engine (R139, R197) and the special functions
(R206 to R212), on 32-bit lanes. -/
namespace Sys2Proof.Machine

/-! ## Arithmetic -/

/-- The value of an FP32 lane. -/
def dec32 (x : W32) : FVal := decodeFp fp32Params x.toNat

/-- An FP32 lane from a value, with flags; the canonical NaN for NaN (R139). -/
def enc32 (v : FVal) (rnd : Rnd) (r : Nat) : W32 × ArithFlags :=
  let o := encodeVal .fp32 v rnd false r
  (BitVec.ofNat 32 o.1, o.2)

/-- The canonical FP32 NaN (R113). -/
def qnan32 : W32 := 0x7FC00000#32
/-- +infinity. -/
def pinf32 : W32 := 0x7F800000#32
/-- −infinity. -/
def ninf32 : W32 := 0xFF800000#32
/-- 1.0. -/
def one32 : W32 := 0x3F800000#32

/-- The value with its sign turned. -/
def negVal : FVal → FVal
  | .nan => .nan
  | .inf s => .inf (!s)
  | .fin s m e => .fin (!s) m e

/-- Is the value NaN? -/
def isNanVal : FVal → Bool
  | .nan => true
  | _ => false

/-- Rounds an exact result; invalid where NaN came of operands that are not NaN (R139). -/
def finish32 (v : FVal) (anyNan : Bool) (rnd : Rnd) (r : Nat) : W32 × ArithFlags :=
  match v with
  | .nan => (qnan32, { invalid := !anyNan })
  | w => enc32 w rnd r

/-- a + b (R196, R139). -/
def fadd (a b : W32) (rnd : Rnd) (r : Nat) : W32 × ArithFlags :=
  finish32 (sumVals [dec32 a, dec32 b]) (isNanVal (dec32 a) || isNanVal (dec32 b)) rnd r

/-- a − b. -/
def fsub (a b : W32) (rnd : Rnd) (r : Nat) : W32 × ArithFlags :=
  finish32 (sumVals [dec32 a, negVal (dec32 b)]) (isNanVal (dec32 a) || isNanVal (dec32 b)) rnd r

/-- a × b. -/
def fmul (a b : W32) (rnd : Rnd) (r : Nat) : W32 × ArithFlags :=
  finish32 (mulVal (dec32 a) (dec32 b)) (isNanVal (dec32 a) || isNanVal (dec32 b)) rnd r

/-- a × b + c rounded once, `neg` for c − a × b. An infinity times a zero sets invalid whatever the addend (R139). -/
def ffmaVal (a b c : FVal) (neg : Bool) (rnd : Rnd) (r : Nat) : W32 × ArithFlags :=
  let p := mulVal a b
  let p := if neg then negVal p else p
  if isNanVal p && !(isNanVal a || isNanVal b) then (qnan32, { invalid := true })
  else finish32 (sumVals [p, c]) (isNanVal a || isNanVal b || isNanVal c) rnd r

/-- Fused a × b + c. -/
def ffma (a b c : W32) (rnd : Rnd) (r : Nat) : W32 × ArithFlags := ffmaVal (dec32 a) (dec32 b) (dec32 c) false rnd r

/-- Fused c − a × b. -/
def ffnma (a b c : W32) (rnd : Rnd) (r : Nat) : W32 × ArithFlags := ffmaVal (dec32 a) (dec32 b) (dec32 c) true rnd r

/-- The sign bit of a lane. -/
def sign32 (x : W32) : Bool := x.msb

/-- IEEE 754-2019 maximum: NaN gives the canonical NaN, −0 is less than +0, no flag (R197). -/
def fmax (a b : W32) : W32 :=
  match cmpVal (dec32 a) (dec32 b) with
  | none => qnan32
  | some c => if c > 0 then a else if c < 0 then b else if sign32 a then b else a

/-- IEEE 754-2019 minimum (R197). -/
def fmin (a b : W32) : W32 :=
  match cmpVal (dec32 a) (dec32 b) with
  | none => qnan32
  | some c => if c < 0 then a else if c > 0 then b else if sign32 a then a else b

/-- Absolute value; NaN gives the canonical NaN (R197). -/
def fabs (a : W32) : W32 := if isNanVal (dec32 a) then qnan32 else a &&& 0x7FFFFFFF#32

/-- Negation; NaN gives the canonical NaN (R197). -/
def fneg (a : W32) : W32 := if isNanVal (dec32 a) then qnan32 else a ^^^ 0x80000000#32

/-- Quiet comparisons (R197): a NaN operand is never equal, less or less-or-equal. -/
def feq (a b : W32) : Bool := cmpVal (dec32 a) (dec32 b) = some 0
/-- a < b. -/
def flt (a b : W32) : Bool := cmpVal (dec32 a) (dec32 b) = some (-1)
/-- a ≤ b. -/
def fle (a b : W32) : Bool := feq a b || flt a b

/-! ## Special functions: helpers of R207 -/

/-- add32, rounded to nearest, no flag. -/
def add32 (a b : W32) : W32 := (fadd a b .rne 0).1
/-- mul32, rounded to nearest, no flag. -/
def mul32 (a b : W32) : W32 := (fmul a b .rne 0).1
/-- fma32, rounded to nearest, no flag. -/
def fma32 (a b c : W32) : W32 := (ffma a b c .rne 0).1

/-- rne_int: the nearest integer of a finite value, ties to even. -/
def rneInt (s : Bool) (m : Nat) (e : Int) : Int :=
  let x := (roundShift m (-e) .rne 0).1
  if s then -(x : Int) else x

/-- The FP32 lane of an exactly representable s, m, e. -/
def exact32 (s : Bool) (m : Nat) (e : Int) : W32 := (enc32 (.fin s m e) .rne 0).1

/-- split of R207: the significand from 2^23 to 2^24 − 1 and the exponent e with |x| = m24 × 2^(e − 23). -/
def split32 (m : Nat) (e : Int) : Nat × Int :=
  let k := 24 - bitlen m
  (m * 2 ^ k, e - k + 23)

/-- scale32(y, n): y × 2^n rounded once (R207). -/
def scale32 (y : W32) (n : Int) : W32 :=
  match dec32 y with
  | .fin s m e => (enc32 (.fin s m (e + n)) .rne 0).1
  | _ => y

/-- copysign. -/
def copysign32 (y x : W32) : W32 := (y &&& 0x7FFFFFFF#32) ||| (x &&& 0x80000000#32)

/-- sf_exp2 of R208. -/
def sfExp2 (x : W32) : W32 :=
  match dec32 x with
  | .nan => qnan32
  | .inf s => if s then 0#32 else pinf32
  | .fin s m e =>
    if fle 0x43000000#32 x then pinf32
    else if fle x 0xC3170000#32 then 0#32
    else
      let k := rneInt s m (e + 6)
      let r := (enc32 (sumVals [.fin s m e, .fin (decide (0 ≤ k)) k.natAbs (-6)]) .rne 0).1
      let j := (k % 64).toNat
      let n := k / 64
      let q := mul32 r (fma32 (fma32 cC3 r cC2) r cC1)
      let t := tblAt tblExp2 j
      scale32 (fma32 t q t) n

/-- sf_log2 of R209. -/
def sfLog2 (x : W32) : W32 :=
  match dec32 x with
  | .nan => qnan32
  | .inf s => if s then qnan32 else pinf32
  | .fin s m e =>
    if m = 0 then ninf32
    else if s then qnan32
    else
      let (m24, ex) := split32 m e
      let big := m24 ≥ 3 * 2 ^ 22
      let me : Int := if big then -24 else -23
      let ex := if big then ex + 1 else ex
      let mw := exact32 false m24 me
      let i := rneInt false m24 (me + 6) - 64
      let idx := (i + 16).toNat
      let z := fma32 mw (tblAt tblLR idx) 0xBF800000#32
      let p := [4, 3, 2, 1, 0].foldl (fun p k => fma32 p z (tblAt tblD k)) (tblAt tblD 5)
      let y := fma32 z p (tblAt tblLT idx)
      add32 (exact32 (decide (ex < 0)) ex.natAbs 0) y

/-- sf_rcp of R210. -/
def sfRcp (x : W32) : W32 :=
  match dec32 x with
  | .nan => qnan32
  | .inf _ => copysign32 0#32 x
  | .fin _ m e =>
    if m = 0 then copysign32 pinf32 x
    else
      let (m24, ex) := split32 m e
      let mw := exact32 false m24 (-23)
      let y :=
        if m24 = 2 ^ 23 then one32
        else
          let nm := mw ^^^ 0x80000000#32
          let y := tblAt tblRT (m24 / 2 ^ 17 % 64)
          let y := fma32 y (fma32 nm y one32) y
          fma32 y (fma32 nm y one32) y
      copysign32 (scale32 y (-ex)) x

/-- sf_rsqrt of R210. -/
def sfRsqrt (x : W32) : W32 :=
  match dec32 x with
  | .nan => qnan32
  | .inf s => if s then qnan32 else 0#32
  | .fin s m e =>
    if m = 0 then copysign32 pinf32 x
    else if s then qnan32
    else
      let (m24, ex) := split32 m e
      let odd := ex % 2 = 1
      let i := m24 / 2 ^ 18 % 32 + (if odd then 32 else 0)
      let mw := exact32 false m24 (if odd then -22 else -23)
      let ex := if odd then ex - 1 else ex
      if mw = one32 then scale32 one32 (-ex / 2)
      else
        let nm := mw ^^^ 0x80000000#32
        let y := tblAt tblRQ i
        let y := fma32 (mul32 y 0x3F000000#32) (fma32 nm (mul32 y y) one32) y
        let y := fma32 (mul32 y 0x3F000000#32) (fma32 nm (mul32 y y) one32) y
        scale32 y (-ex / 2)

/-- sf_tanh of R211. -/
def sfTanh (x : W32) : W32 :=
  if isNanVal (dec32 x) then qnan32
  else
    let a := x &&& 0x7FFFFFFF#32
    if fle 0x41100000#32 a then copysign32 one32 x
    else if flt a 0x39800000#32 then x
    else if flt a 0x3E800000#32 then
      let w := mul32 x x
      let p := [3, 2, 1, 0].foldl (fun p k => fma32 p w (tblAt tblTP k)) (tblAt tblTP 4)
      fma32 (mul32 x w) p x
    else
      let q := sfRcp (add32 (sfExp2 (mul32 a cL2E2)) one32)
      copysign32 (fma32 0xC0000000#32 q one32) x

/-- sf_sigm of R211. -/
def sfSigm (x : W32) : W32 :=
  if isNanVal (dec32 x) then qnan32
  else if x = pinf32 then one32
  else if flt x 0xC1C00000#32 then sfExp2 (mul32 x cL2E)
  else sfRcp (add32 (sfExp2 (mul32 (x ^^^ 0x80000000#32) cL2E)) one32)

/-- The function's value. -/
def specVal : SpecOp → W32 → W32
  | .exp2 => sfExp2 | .log2 => sfLog2 | .rcp => sfRcp | .rsqrt => sfRsqrt | .tanh => sfTanh | .sigm => sfSigm

/-- Is the lane a finite number? -/
def isFin32 (x : W32) : Bool := match dec32 x with | .fin _ _ _ => true | _ => false

/-- The flags of a special function on input x with result y (R212). -/
def specFlags (f : SpecOp) (x y : W32) : ArithFlags :=
  let zero := x &&& 0x7FFFFFFF#32 = 0#32
  let below := flt x 0#32
  let dz := decide zero && (f == .log2 || f == .rcp || f == .rsqrt)
  { invalid := below && (f == .log2 || f == .rsqrt)
    divzero := dz
    overflow := isFin32 x && !dz && decide (y &&& 0x7FFFFFFF#32 = pinf32)
    underflow := isFin32 x && !decide zero && decide ((y &&& 0x7FFFFFFF#32).toNat < 2 ^ 23) || (isFin32 y &&
      decide (0 < (y &&& 0x7FFFFFFF#32).toNat) && decide ((y &&& 0x7FFFFFFF#32).toNat < 2 ^ 23)) }

/-- The prescaled input stage x = fma32(a, b, c), and whether it gives NaN from operands that are not NaN (R206, R212). -/
def prescale (a b c : W32) : W32 × Bool :=
  let x := fma32 a b c
  (x, isNanVal (dec32 x) && !(isNanVal (dec32 a) || isNanVal (dec32 b) || isNanVal (dec32 c)))

/-! ## Reductions (R197) -/

/-- The pairwise tree over 2^n lanes with a node function that takes level, node, left, right. Returns the levels'
last list and the flags. -/
def treeLevel (f : Nat → Nat → W32 → W32 → W32 × ArithFlags) (lvl : Nat) : Nat → List W32 → List W32 × ArithFlags
  | k, a :: b :: t =>
    let o := f lvl k a b
    let rest := treeLevel f lvl (k + 1) t
    (o.1 :: rest.1, orFlags o.2 rest.2)
  | _, l => (l, flags0)

/-- `n` levels of the tree, level 1 first. -/
def treeReduce (f : Nat → Nat → W32 → W32 → W32 × ArithFlags) : Nat → Nat → List W32 → List W32 × ArithFlags
  | 0, _, l => (l, flags0)
  | n + 1, lvl, l =>
    let o := treeLevel f lvl 0 l
    let rest := treeReduce f n (lvl + 1) o.1
    (rest.1, orFlags o.2 rest.2)

/-- The lane whose draw a node of VRSUM with rnd = SR uses: the lowest lane of its right-hand operand. -/
def treeDrawLane (lvl k : Nat) : Nat := 2 ^ lvl * k + 2 ^ (lvl - 1)

end Sys2Proof.Machine
end

