-- ==== Sys2Proof/Config.lean ====
section
/-! DEFINITION. Config.lean: what one module is made with (fuses, keys) and the free values. Every constant here
is opaque: no proof can see a value of it, and a claim holds whatever it is. -/
namespace Sys2Proof

/-- Contents of a configuration record (R518) that stage 1 writes to registers or acts on. -/
structure CfgRecord where
  serial : W64
  /-- station addresses of links 40 to 47 -/
  macs : List (BitVec 48)
  /-- factory values of FLD_REPAIR_ROWn, by field and n; of FLD_SPARE_MAP, by field -/
  repair : List (Nat × Nat × W64)
  spares : List (Nat × W64)
  /-- access-table defaults: register address and value -/
  tables : List (Nat × W64)
  /-- fields for which the record holds some other value out of range -/
  bad : List Nat
  deriving Inhabited

/-- A relocation record (R567). -/
structure Reloc where
  kind : Nat
  lo : Nat
  width : Nat
  sym : Nat
  shift : Nat
  unit : Nat
  off : Nat
  id : Nat
  addend : Int
  deriving Inhabited

/-- A tensor of an image (R561). -/
structure Tensor where
  id : Nat
  field : Nat
  size : Nat
  align : Nat
  zero : Bool
  data : List Byte
  deriving Inhabited

/-- The sections of an image as they concern one module (R561), sets of units written out. -/
structure ImageParts where
  /-- core, task, task base in the instruction store, bytes -/
  code : List (Nat × Nat × Nat × List Byte)
  /-- cluster, steward memory image; cluster, start word -/
  stewards : List (Nat × List Byte)
  starts : List (Nat × Nat)
  /-- core, task, first row from the task base, bytes -/
  rows : List (Nat × Nat × Nat × List Byte)
  /-- register writes: address, value -/
  regs : List (Nat × W64)
  tensors : List Tensor
  /-- overlay segments, stored as tensors (R568) -/
  overlays : List Tensor
  relocs : List Reloc
  /-- none where bit 0 of the RELOC header is 0: every task's tile-store range stands at its base. Else, by how many times 64
  rows the loader moves a range, by the register that names it and the fenced fields: the same for one image wherever these
  are the same (R566); which, the spec leaves to the loader (log 124) -/
  moves : Option (Nat → W64 → Nat)
  /-- start entry per core -/
  entries : List (Nat × Nat)
  /-- minimum guard of a link that the alternate routes need, in ns -/
  guards : List (Nat × Nat)
  /-- declared draw of the first phase, in W -/
  draw : Option Nat
  deriving Inhabited

end Sys2Proof

namespace Sys2Proof.Config
open Sys2Proof

/-- The n-th free value: a value the spec leaves open while the machine goes on. Applied to the counter `State.freeCtr`,
which the step that reads it advances. -/
opaque freeValue : Nat → W64

/-- Fused identity (R31, R33, R364, R554): grade 1 or 2 in `MOD_IDENT.grade`, decided by this Boolean. -/
opaque gradeTwo : Bool
/-- Silicon stepping, `MOD_IDENT.stepping` (R33). -/
opaque stepping : BitVec 4
/-- `FLD_ACT_COEFc.coef` of a field, fused at test (R507). -/
opaque actCoef : Nat → Nat → BitVec 16
/-- The signature check of an image (R516, R522): which keys apply (empty: the ROM's four public keys, less the revoked ones;
else bytes 48 to 95 of the header of the stage-1 image that lists them), the signed bytes 0 to 95, the signature bytes. -/
opaque signatureValid : List Byte → List Byte → List Byte → Bool
/-- The boot flash as the module is shipped, by offset (R515, R599). -/
opaque flash : Nat → Byte
/-- What a configuration record says (R518), read from its payload; the spec does not give the places in it. -/
opaque configRecord : List Byte → CfgRecord
/-- What the sections of a program image say for a module of a domain index (R561); the spec does not give the records of a
section byte by byte. -/
opaque imageParts : List Byte → Nat → ImageParts
/-- What a check of R564 finds in a program image where it rests on several cores, stewards or modules together, or on parts of
the image that `ImageParts` does not hold: nothing, or core, tag and second tag. -/
opaque verifierRest : List Byte → Nat → Option (Nat × Nat × Nat)
/-- MAC address of service link i (R477: from configuration). -/
opaque serviceMac : Nat → BitVec 48
/-- The bytes of a section of the handover record, from its type and what R529 says it holds, the larger tables by address; the
spec does not give their places in the section. -/
opaque handoverSection : Nat → List Nat → List Byte
/-- The 64 bytes of an energy-log record (R498): step, dominant phase, duration in ns, energies of tasks 0 to 3 and shared
in µJ, measured input energy in µJ, scale. The spec does not give their places in the record. -/
opaque energyRecord : List Nat → BitVec 512

end Sys2Proof.Config
end

