-- ==== Sys2Proof/Machine/RegMap.lean ====
section
/-! DEFINITION. Machine/RegMap.lean: the field maps of every register (R31, R33, R82, R109, R147, R184, R217, R247, R271
to R274, R307, R308, R332 to R334, R364, R366, R403, R404, R429, R430, R454, R455, R475 to R478, R506, R507, R532, R533,
R554, R555): offset, index ranges, reset value (R582) and, field by field, access code and active-only mark (R15). -/
namespace Sys2Proof.Machine

/-- The register blocks of R577; service links are links 40 to 47. -/
inductive Blk where
  | core | cluster | field | module | link | service
  deriving DecidableEq, Repr

/-- The access codes of R15; `rsv` is a reserved field (R12). -/
inductive Acc where
  | ro | rw | wo | w1c | rwh | rsv
  deriving DecidableEq, Repr

/-- One field of a register: its bits, its access code, active-only or not. -/
structure FieldDesc where
  hi : Nat
  lo : Nat
  acc : Acc
  active : Bool
  deriving DecidableEq, Repr

/-- One row of a field map: block, first offset, two index ranges (stride and count), reset value and fields. -/
structure RegDesc where
  blk : Blk
  off : Nat
  s1 : Nat
  n1 : Nat
  s2 : Nat
  n2 : Nat
  reset : Nat
  fields : List FieldDesc
  deriving DecidableEq, Repr

/-- FLD_IDENT (R31): fy[11:8] RO; fx[7:4] RO; spare_cols[3:0] RO. (* active-only) -/
def oFldIdent : Nat := 0x0000
/-- FLD_FENCE_CTL (R31): cause[15:8] WO; fence[0] WO. (* active-only) -/
def oFldFenceCtl : Nat := 0x0008
/-- FLD_FENCE_STATUS (R31): cause[15:8] RO; fenced[0] RO. (* active-only) -/
def oFldFenceStatus : Nat := 0x0010
/-- FLD_FENCE_DROPS (R31): count[63:0] RO. (* active-only) -/
def oFldFenceDrops : Nat := 0x0018
/-- FLD_REPAIR_ROWn (R31): skip7[63:56] … skip0[7:0] RW*. (* active-only) -/
def oFldRepairRow : Nat := 0x0100
/-- FLD_SPARE_MAP (R31): gar_sub_en[15] RWH; gar_sub_line[14:12] RWH; gw_sub_en[7] RW*; gw_sub_channel[4:0] RW*. (* active-only) -/
def oFldSpareMap : Nat := 0x0180
/-- MOD_IDENT (R33): member[63:48] RO; grade[47:44] RO; stepping[43:40] RO; field_cols[39:36] RO; field_rows[35:32] RO. (* active-only) -/
def oModIdent : Nat := 0x0000
/-- MOD_FIELD_FENCED (R33): fenced[63:0] RO. (* active-only) -/
def oModFieldFenced : Nat := 0x0008
/-- CORE_STATE (R82): waiting[23] RO; state[22:20] RO; task[17:16] RO; pc[7:0] RO. (* active-only) -/
def oCoreState : Nat := 0x0000
/-- CORE_CTL (R82): entry[11:8] WO; start[0] WO. (* active-only) -/
def oCoreCtl : Nat := 0x0008
/-- CORE_PHASE (R82): phase[7:0] RO. (* active-only) -/
def oCorePhase : Nat := 0x0010
/-- CORE_STEP (R82): step[63:0] RO. (* active-only) -/
def oCoreStep : Nat := 0x0018
/-- CORE_QUEUE_STATUS (R82): send[14:12] RO; move[11:8] RO; vector[6:4] RO; matrix[2:0] RO. (* active-only) -/
def oCoreQueueStatus : Nat := 0x0020
/-- CORE_FAULT_INFO (R82): valid[63] W1C; slot[42:40] RO; other_tag[39:20] RO; tag[19:0] RO. (* active-only) -/
def oCoreFaultInfo : Nat := 0x0028
/-- CORE_REFUSALS (R82): cfg_rejected[63:32] RO; locked[31:0] RO. (* active-only) -/
def oCoreRefusals : Nat := 0x0030
/-- CORE_TASKt_IMEM (R82): valid[24] RW*; isize[23:16] RW*; ibase[7:0] RW*. (* active-only) -/
def oCoreTaskImem : Nat := 0x0040
/-- CORE_TASKt_DEADLINE (R82): offset_ns[31:0] RW*. (* active-only) -/
def oCoreTaskDeadline : Nat := 0x0060
/-- CORE_HORIZONn (R82): cycles[31:0] RW*. (* active-only) -/
def oCoreHorizon : Nat := 0x0080
/-- CORE_LOOPINITn (R82): count[31:0] RW*. (* active-only) -/
def oCoreLoopinit : Nat := 0x00C0
/-- CORE_ENTRYn (R82): valid[10] RW*; task[9:8] RW*; word[7:0] RW*. (* active-only) -/
def oCoreEntry : Nat := 0x0100
/-- CORE_OVLn (R82): nwords_m1[63:56] RW*; dst[55:48] RW*; addr[47:0] RW*. (* active-only) -/
def oCoreOvl : Nat := 0x0180
/-- CORE_ADRn (R82): adv[63:48] RW*; addr[47:0] RW*. (* active-only) -/
def oCoreAdr : Nat := 0x0200
/-- CORE_RINGt (R82): en[19] RW*; fill_ctr[18:14] RW*; size_m1[13:10] RW*; base_tile[5:0] RW*. (* active-only) -/
def oCoreRing : Nat := 0x0300
/-- CORE_RING_STATUS (R82): cancelled[63:32] RO; outstanding[21:16] RO; provisional[14:10] RO; free[9:5] RO; next_slot[3:0] RO. (* active-only) -/
def oCoreRingStatus : Nat := 0x0340
/-- CORE_FETCH_STATUS (R82): stop_cause[11:8] RO; fpc[7:0] RO. (* active-only) -/
def oCoreFetchStatus : Nat := 0x0348
/-- CORE_TASKt_TS (R109): tsize[26:16] RW*; tbase[10:0] RW*. (* active-only) -/
def oCoreTaskTs : Nat := 0x0400
/-- CORE_TS_CONFLICT (R109): valid[63] W1C; side[29] RO; kind[28] RO; win_src[27:25] RO; lose_src[24:22] RO; win_row[21:11] RO; lose_row[10:0] RO. (* active-only) -/
def oCoreTsConflict : Nat := 0x0420
/-- CORE_TS_COMBINE (R109): merges[63:32] RO; flushes[31:4] RO; open[3:0] RO. (* active-only) -/
def oCoreTsCombine : Nat := 0x0428
/-- CORE_TS_BGWAIT (R109): count[63:0] RO. (* active-only) -/
def oCoreTsBgwait : Nat := 0x0430
/-- CORE_TS_CONFLICT_COUNT (R109): count[63:0] RO. (* active-only) -/
def oCoreTsConflictCount : Nat := 0x0438
/-- CORE_ACCb (R147): terms[40:16] RW*; win_high[15] RW*; win_low[14] RW*; exact[12] RW*; wb[7:0] RW*. (* active-only) -/
def oCoreAcc : Nat := 0x0500
/-- CORE_ARITH_FLAGS (R147): win_high_any[9] W1C; win_low_any[8] W1C; invalid[4] W1C; divzero[3] W1C; overflow[2] W1C; underflow[1] W1C; inexact[0] W1C. (* active-only) -/
def oCoreArithFlags : Nat := 0x0700
/-- CORE_RNG (R147): rc[31:0] RW*. (* active-only) -/
def oCoreRng : Nat := 0x0708
/-- MOD_RNG_SEED (R147): seed[63:0] RWH. (* active-only) -/
def oModRngSeed : Nat := 0x0100
/-- CORE_MX_STATUS (R184): shd_seq[35:32] RW*; cur_kind[31:28] RW*; shd_kind[27:24] RW*; ramp[21:16] RO; idle[15:0] RO. (* active-only) -/
def oCoreMxStatus : Nat := 0x0800
/-- CORE_MX_STEPS (R184): count[63:0] RO. (* active-only) -/
def oCoreMxSteps : Nat := 0x0808
/-- CORE_MX_GHOSTS (R184): count[63:0] RO. (* active-only) -/
def oCoreMxGhosts : Nat := 0x0810
/-- CORE_CONVEYOR (R184): passed[63:32] RO; sent[31:16] RO; dropped[15:0] RO. (* active-only) -/
def oCoreConveyor : Nat := 0x0818
/-- CORE_WL_CURk (R184): data[63:0] RW*. (* active-only) -/
def oCoreWlCur : Nat := 0x0820
/-- CORE_WL_SHDk (R184): data[63:0] RW*. (* active-only) -/
def oCoreWlShd : Nat := 0x0840
/-- CORE_MX_SCALES (R184): cur_scale[15:8] RW*; shd_scale[7:0] RW*. (* active-only) -/
def oCoreMxScales : Nat := 0x0860
/-- CORE_MX_ASCALEn (R184): data[63:0] RW*. (* active-only) -/
def oCoreMxAscale : Nat := 0x0880
/-- CORE_VDESCn (R217): kind[63:62] RW*; fmt[61:58] RW*; lstride[57] RW*; elem[56:50] RW*; part[49:48] RW*; vstride[47:40] RW*; base[34:24] RW*. (* active-only) -/
def oCoreVdesc : Nat := 0x0900
/-- CORE_VX_VECTORS (R217): count[63:0] RO. (* active-only) -/
def oCoreVxVectors : Nat := 0x0980
/-- CORE_VX_STATS (R217): summaries[63:32] RO; commands[31:0] RO. (* active-only) -/
def oCoreVxStats : Nat := 0x0988
/-- CLU_STATE (R247): pc[27:16] RO; arrived[14:8] RO; mixed[4] RO; state[2:0] RO. (* active-only) -/
def oCluState : Nat := 0x0000
/-- CLU_CTL (R247): word[27:16] WO; start[0] WO. (* active-only) -/
def oCluCtl : Nat := 0x0008
/-- CLU_ARRIVED (R247): arrived[63:0] RO. (* active-only) -/
def oCluArrived : Nat := 0x0010
/-- CLU_FAULT_INFO (R247): valid[63] W1C; cause[47:44] RO; pc[27:16] RO. (* active-only) -/
def oCluFaultInfo : Nat := 0x0018
/-- CLU_NEXTn (R247): e15[63:60] … e0[3:0] RW*. (* active-only) -/
def oCluNext : Nat := 0x0020
/-- CLU_HORIZONn (R247): cycles[31:0] RW*. (* active-only) -/
def oCluHorizon : Nat := 0x0040
/-- CLU_NOTIFY (R247): valid[63] W1C; count[47:32] RO; code[31:0] RO. (* active-only) -/
def oCluNotify : Nat := 0x0080
/-- CLU_STATS (R247): decisions[63:32] RO; release_wait[31:16] RO; ts_wait[15:0] RO. (* active-only) -/
def oCluStats : Nat := 0x0088
/-- CLU_INBOX_LOST (R247): count[63:0] RO. (* active-only) -/
def oCluInboxLost : Nat := 0x0090
/-- CLU_DP_TIME (R247): max[63:32] RO; last[31:0] RO. (* active-only) -/
def oCluDpTime : Nat := 0x0098
/-- CLU_FENCE_CTL (R247): cause[15:8] WO; fence[0] WO. (* active-only) -/
def oCluFenceCtl : Nat := 0x00A0
/-- CLU_FENCE_STATUS (R247): cause[15:8] RO; fenced[0] RO. (* active-only) -/
def oCluFenceStatus : Nat := 0x00A8
/-- CLU_REFUSALS (R247): cfg_rejected[63:32] RO; locked[31:0] RO. (* active-only) -/
def oCluRefusals : Nat := 0x00B0
/-- CLU_INBOXe (R247): kind[63:60] RO; fresh[49] RO; lost[48] RO; index[47:32] RO; value[31:0] RO. (* active-only) -/
def oCluInbox : Nat := 0x0800
/-- CORE_CTRVALn (R271): c3[63:48] … c0[15:0] RW*. (* active-only) -/
def oCoreCtrval : Nat := 0x0A00
/-- CORE_CTR_STEPn (R271): k3[63:48] … k0[15:0] RW*. (* active-only) -/
def oCoreCtrStep : Nat := 0x0A40
/-- CORE_CTR_MODE (R271): m31[63:62] … m0[1:0] RW*. (* active-only) -/
def oCoreCtrMode : Nat := 0x0A80
/-- CORE_CTR_EXT (R271): ext[31:0] RW*. (* active-only) -/
def oCoreCtrExt : Nat := 0x0A88
/-- CORE_CTR_STATUS (R271): valid[63] W1C; kind[29] RO; ctr[28:24] RO; gen[19:16] RW*; value[15:0] RO. (* active-only) -/
def oCoreCtrStatus : Nat := 0x0A90
/-- CORE_WAIT_STATS (R271): gated[63:32] RO; waited[31:0] RO. (* active-only) -/
def oCoreWaitStats : Nat := 0x0A98
/-- CORE_GARn (R271): releases[31:16] RO; arrived[10] RO; fb_group[9:6] RW*; ctr[4:0] RW*. (* active-only) -/
def oCoreGar : Nat := 0x0AC0
/-- CLU_GAR_MASKn (R272): mask[63:0] RWH. (* active-only) -/
def oCluGarMask : Nat := 0x0100
/-- CLU_WATCH_CTL (R272): en[0] RW. (* active-only) -/
def oCluWatchCtl : Nat := 0x0140
/-- CLU_DEADLOCK (R272): valid[63] W1C; count[47:32] RO; cycle[31:0] RO. (* active-only) -/
def oCluDeadlock : Nat := 0x0148
/-- CLU_DL_WAITING (R272): cores[63:0] RO. (* active-only) -/
def oCluDlWaiting : Nat := 0x0150
/-- CLU_DL_HELD (R272): cores[63:0] RO. (* active-only) -/
def oCluDlHeld : Nat := 0x0158
/-- GAR_FMASKn_w (R273): mask[63:0] RWH. (* active-only) -/
def oGarFmask : Nat := 0x0200
/-- GAR_FLD_STATUS (R273): spare_fault[24] W1C; fault[15:8] W1C; held[7:0] RO. (* active-only) -/
def oGarFldStatus : Nat := 0x0300
/-- FLD_SLACK (R273): count[63:0] RO. (* active-only) -/
def oFldSlack : Nat := 0x0308
/-- FLD_SLACK_LAST (R273): count[63:0] RO. (* active-only) -/
def oFldSlackLast : Nat := 0x0310
/-- GAR_LINEn_FIELDS (R274): fields[63:0] RWH. (* active-only) -/
def oGarLineFields : Nat := 0x0400
/-- GAR_LINEn_CTL (R274): scope[11:10] RO; fallback[8] RW; fb_active[0] RO. (* active-only) -/
def oGarLineCtl : Nat := 0x0440
/-- GAR_REALIGN (R274): horizon[63:32] RW*; domain[4] RW*; line[2:0] RW*. (* active-only) -/
def oGarRealign : Nat := 0x0480
/-- GAR_FB_STATS (R274): max_ns[63:32] RO; count[31:0] RO. (* active-only) -/
def oGarFbStats : Nat := 0x0488
/-- GAR_FBEXPn_g (R274): arrived[52:32] RO; expected[20:0] RW*. (* active-only) -/
def oGarFbexpG : Nat := 0x0500
/-- CORE_CHANc (R307): data[63:29] RW*. (* active-only) -/
def oCoreChan : Nat := 0x0C00
/-- CORE_CHSTATc (R307): fenced[63] W1C; stale[62] W1C; parity[61] W1C; misroute[60] W1C; length[59] W1C; overflow[58] W1C; round_open[57] W1C; credits[39:34] RW*; wr_ptr[29:21] RW*; gen[19:16] RW*; count[7:0] RW*. (* active-only) -/
def oCoreChstat : Nat := 0x0E00
/-- CORE_CHMSGc (R307): messages[63:32] RO; drops[31:0] RO. (* active-only) -/
def oCoreChmsg : Nat := 0x1000
/-- CORE_CHSTALLc (R307): cycles[63:0] RO. (* active-only) -/
def oCoreChstall : Nat := 0x1008
/-- CORE_SLOTn (R307): in_send[14:12] RWH; in_w[11:9] RWH; in_s[8:6] RWH; in_e[5:3] RWH; in_n[2:0] RWH. (* active-only) -/
def oCoreSlot : Nat := 0x1400
/-- CORE_MESH_STATUS (R307): slot_pending[63] RO; send_rows[54:48] RO; lane_busy[25:24] RO; aq_w[23:18] RO; aq_s[17:12] RO; aq_e[11:6] RO; aq_n[5:0] RO. (* active-only) -/
def oCoreMeshStatus : Nat := 0x1600
/-- CORE_MESH_FAULT (R307): valid[63] W1C; kind[58:56] RO; chan[55:50] RO; src_core[39:20] RO; tag[19:0] RO. (* active-only) -/
def oCoreMeshFault : Nat := 0x1608
/-- FLD_XING_STATUSe (R308): events[47:32] RO; max_disp[7:0] RO. (* active-only) -/
def oFldXingStatus : Nat := 0x0600
/-- CORE_MEM_STATS (R332): transactions[63:32] RO; begin_wait[31:0] RO. (* active-only) -/
def oCoreMemStats : Nat := 0x1800
/-- CORE_MEM_LAT (R332): max_ns[63:48] RO; last_ns[47:32] RO; admit_wait[31:0] RO. (* active-only) -/
def oCoreMemLat : Nat := 0x1808
/-- CORE_MEM_FAULT (R332): valid[63] W1C; kind[62:60] RO; addr[47:0] RO. (* active-only) -/
def oCoreMemFault : Nat := 0x1810
/-- CORE_IDXn (R332): sh[39:36] RW*; lim[31:0] RW*. (* active-only) -/
def oCoreIdx : Nat := 0x1900
/-- CLU_MEM_STATS (R333): port_wait[63:32] RO; requests[31:0] RO. (* active-only) -/
def oCluMemStats : Nat := 0x0180
/-- CLU_MEM_STATUS (R333): queued[22:16] RO; beats[9:0] RO. (* active-only) -/
def oCluMemStatus : Nat := 0x0188
/-- GW_STATUS (R334): self_refresh[44] RO; waiting[27:16] RO; tracker[11:0] RO. (* active-only) -/
def oGwStatus : Nat := 0x1000
/-- GW_CLASS_CTL (R334): fw_share[63:56] RW; host_share[55:48] RW; host_max[43:32] RW; rdma_max[27:16] RW. (* active-only) -/
def oGwClassCtl : Nat := 0x1008
/-- GW_BUDGET (R334): host_bytes[63:32] RW; rdma_bytes[31:0] RW. (* active-only) -/
def oGwBudget : Nat := 0x1010
/-- GW_CLASSk_COUNT (R334): admitted[63:32] RO; refused[31:0] RO. (* active-only) -/
def oGwClassCount : Nat := 0x1040
/-- GW_CLASSk_WAIT (R334): wait_ns[63:0] RO. (* active-only) -/
def oGwClassWait : Nat := 0x1048
/-- GW_ECC (R334): corrected[63:32] RO; uncorrected[31:16] RO; poisoned_reads[15:0] RO. (* active-only) -/
def oGwEcc : Nat := 0x1100
/-- GW_ECC_LAST (R334): valid[63] W1C; uncorr[62] RO; by_scrub[61] RO; chan[38:34] RO; addr[33:0] RO. (* active-only) -/
def oGwEccLast : Nat := 0x1108
/-- GW_SCRUB (R334): en[63] RW; passes[47:32] RO; pos[22:0] RO. (* active-only) -/
def oGwScrub : Nat := 0x1110
/-- GW_FENCE_COUNT (R334): count[63:0] RO. (* active-only) -/
def oGwFenceCount : Nat := 0x1118
/-- GW_PROBE_BASE (R334): base[33:0] RW. (* active-only) -/
def oGwProbeBase : Nat := 0x1180
/-- GW_PROBE_SIZE (R334): size[34:0] RW. (* active-only) -/
def oGwProbeSize : Nat := 0x1188
/-- GW_PROBE_RESULT (R334): valid[63] RO; count[15:0] RO. (* active-only) -/
def oGwProbeResult : Nat := 0x1190
/-- GW_CHANj_ECC (R334): corrected[63:32] RO; uncorrected[31:0] RO. (* active-only) -/
def oGwChanEcc : Nat := 0x1200
/-- CLK_FREQ_CTL (R364): mode[8] RWH; n[4:0] RWH. (* active-only) -/
def oClkFreqCtl : Nat := 0x1000
/-- CLK_FREQ_STATUS (R364): mhz[47:32] RO; gov_down[18] RO; clamped[17] RO; mode[16] RO; ceiling[12:8] RO; n[4:0] RO. (* active-only) -/
def oClkFreqStatus : Nat := 0x1008
/-- CLK_HUSH_CTL (R364): abort[3] WO; idle[2] WO; req[0] RW. (* active-only) -/
def oClkHushCtl : Nat := 0x1010
/-- CLK_HUSH_STATUS (R364): rail_timeout[35] W1C; stopped[34] RO; kind[33:32] RO; last_ns[31:0] RO. (* active-only) -/
def oClkHushStatus : Nat := 0x1018
/-- CLK_HUSH_STATS (R364): count[63:32] RO; overruns[31:16] RO; max_ns[15:0] RO. (* active-only) -/
def oClkHushStats : Nat := 0x1020
/-- CLK_REF_CTL (R364): prefer[0] RWH. (* active-only) -/
def oClkRefCtl : Nat := 0x1028
/-- CLK_REF_STATUS (R364): qual_ms[43:32] RO; holdover[5] RO; switching[4] RO; back_pending[3] RO; selected[2] RO; b_qual[1] RO; a_qual[0] RO. (* active-only) -/
def oClkRefStatus : Nat := 0x1030
/-- CLK_REF_EVENTS (R364): failovers[63:32] RO; switchbacks[31:16] RO; holdovers[15:0] RO. (* active-only) -/
def oClkRefEvents : Nat := 0x1038
/-- CLK_GOV_CTL (R364): down[27:24] RW; droop_max[19:8] RW; bal[3:0] RW. (* active-only) -/
def oClkGovCtl : Nat := 0x1040
/-- CLK_START (R364): at[63:0] WO*. (* active-only) -/
def oClkStart : Nat := 0x1048
/-- QTZ_TIME (R364): time[63:0] RO. (* active-only) -/
def oQtzTime : Nat := 0x1100
/-- QTZ_SET (R364): time[63:0] WO*. (* active-only) -/
def oQtzSet : Nat := 0x1108
/-- QTZ_CTL (R364): direct[9] RWH; en_aelto[2] RW; en_1588[1] RW. (* active-only) -/
def oQtzCtl : Nat := 0x1110
/-- QTZ_STATUS (R364): offset_ns[63:32] RO; qual_ms[15:4] RO; back_pending[3] RO; src[2:1] RO; locked[0] RO. (* active-only) -/
def oQtzStatus : Nat := 0x1118
/-- QTZ_STEER (R364): skips[63:32] RO; doubles[31:0] RO. (* active-only) -/
def oQtzSteer : Nat := 0x1120
/-- FLD_CLK_STATUS (R366): gov_req[16] RO; clk_ok[15] RO; lag[7:0] RO. (* active-only) -/
def oFldClkStatus : Nat := 0x0700
/-- FLD_STRETCH_STATS (R366): droop[63:32] RO; balance[31:16] RO; equalise[15:0] RO. (* active-only) -/
def oFldStretchStats : Nat := 0x0708
/-- FLD_QTZ_TIME (R366): time[63:0] RO. (* active-only) -/
def oFldQtzTime : Nat := 0x0710
/-- FLD_QTZ_CORR (R366): holds[63:48] RO; last_ns[47:32] RO; count[31:0] RO. (* active-only) -/
def oFldQtzCorr : Nat := 0x0718
/-- FLD_DROOP_ENw (R366): en[63:0] RWH. (* active-only) -/
def oFldDroopEn : Nat := 0x0720
/-- LNK_CTL (R403): auto[3] RW; retrain[2] WO; down[1] WO; en[0] RW. (* active-only) -/
def oLnkCtl : Nat := 0x0000
/-- LNK_STATUS (R403): xlock[23] RO; rx_spares[22:21] RO; tx_spares[20:19] RO; spare_in[18] RO; version[15:8] RO; state[2:0] RO. (* active-only) -/
def oLnkStatus : Nat := 0x0008
/-- LNK_PEER_EXPECT (R403): check[63] RW; domain[47:32] RW; z[29:25] RW; y[24:20] RW; x[19:15] RW; link[5:0] RW. (* active-only) -/
def oLnkPeerExpect : Nat := 0x0010
/-- LNK_PEER_ID (R403): serial[63:0] RO. (* active-only) -/
def oLnkPeerId : Nat := 0x0018
/-- LNK_PEER_INFO (R403): valid[63] RO; version[55:48] RO; domain[47:32] RO; z[29:25], y[24:20], x[19:15] RO; link[5:0] RO. (* active-only) -/
def oLnkPeerInfo : Nat := 0x0020
/-- LNK_DELAY (R403): d[31:0] RO. (* active-only) -/
def oLnkDelay : Nat := 0x0028
/-- LNK_GUARD (R403): ns[15:0] RWH. (* active-only) -/
def oLnkGuard : Nat := 0x0030
/-- LNK_QTZ (R403): offset[63:32] RO; frames_locked[15:0] RO. (* active-only) -/
def oLnkQtz : Nat := 0x0038
/-- LNK_LANES (R403): dead[33:0] RO. (* active-only) -/
def oLnkLanes : Nat := 0x0040
/-- LNK_RXMAPk (R403): map[47:0] RO. (* active-only) -/
def oLnkRxmap : Nat := 0x0048
/-- LNK_CELLS (R403): tx[63:32] RO; rx[31:0] RO. (* active-only) -/
def oLnkCells : Nat := 0x0080
/-- LNK_FEC (R403): corrected[63:32] RO; uncorrected[31:0] RO. (* active-only) -/
def oLnkFec : Nat := 0x0088
/-- LNK_REPLAY (R403): replays[63:32] RO; late[31:0] RO. (* active-only) -/
def oLnkReplay : Nat := 0x0090
/-- LNK_UNDERRUN (R403): underruns[63:32] RO; rx_lost[31:0] RO. (* active-only) -/
def oLnkUnderrun : Nat := 0x0098
/-- LNK_DOWN_INFO (R403): valid[63] W1C; cause[62:56] RO; time[47:0] RO. (* active-only) -/
def oLnkDownInfo : Nat := 0x00A0
/-- LNK_EVENTS (R403): downs[63:48] RO; retrains[47:32] RO; spare_ins[31:16] RO; mismatches[15:0] RO. (* active-only) -/
def oLnkEvents : Nat := 0x00A8
/-- LNK_CHANq (R403): e_en[63] RW*; e_fwd[62] RW*; e_core[61:56] RW*; e_tile[55:50] RW*; e_size_m1[49:46] RW*; e_ctr[45:41] RW*; e_rcpt[40:35] RW*; rows_m1[34:30] RW*; i_en[29] RW*; i_fwd[28] RW*; i_core[27:22] RW*; i_chan[21:16] RW*; fwd_link[15:10] RW*; fwd_lch[9:4] RW*. (* active-only) -/
def oLnkChan : Nat := 0x0400
/-- LNK_PLANm (R403): hi[63:32] RWH; lo[31:0] RWH. (* active-only) -/
def oLnkPlan : Nat := 0x1000
/-- LNK_FRAME (R404): frame[63:0] RO. (* active-only) -/
def oLnkFrame : Nat := 0x2000
/-- LNK_FRAME_BASE (R404): base[63:0] RW*. (* active-only) -/
def oLnkFrameBase : Nat := 0x2008
/-- LNK_SLIP_CTL (R404): lead[15:8] RW*; period_m1[2:0] RWH. (* active-only) -/
def oLnkSlipCtl : Nat := 0x2010
/-- LNK_SLIP_STATUS (R404): slips[63:32] RO; missed[31] W1C; pending[18:15] RO; next[14:0] RO. (* active-only) -/
def oLnkSlipStatus : Nat := 0x2018
/-- LNK_ALT_ACTIVEw (R404): sets[63:0] RWH. (* active-only) -/
def oLnkAltActive : Nat := 0x2020
/-- LNK_SPARE_SUB (R404): sub[63:0] RWH. (* active-only) -/
def oLnkSpareSub : Nat := 0x2030
/-- LNK_SELF_ID (R404): serial[63:0] RW*. (* active-only) -/
def oLnkSelfId : Nat := 0x2038
/-- LNK_SELF_POS (R404): domain[47:32] RW*; z[29:25], y[24:20], x[19:15] RW*; index[14:0] RW*. (* active-only) -/
def oLnkSelfPos : Nat := 0x2040
/-- LNK_QTZ_SRC (R404): en[6] RW; link[5:0] RW. (* active-only) -/
def oLnkQtzSrc : Nat := 0x2048
/-- LNK_STEP_CTL (R429): radius[23:16] RW*; dirs[7:2] RW*; timed[1] RW*; en[0] RW*. (* active-only) -/
def oLnkStepCtl : Nat := 0x2100
/-- LNK_STEP_NEXT (R429): time[63:0] RW*. (* active-only) -/
def oLnkStepNext : Nat := 0x2108
/-- LNK_STEP_PERIOD (R429): margin_ns[63:48] RW*; period_ns[39:0] RW*. (* active-only) -/
def oLnkStepPeriod : Nat := 0x2110
/-- LNK_STEP_STATUS (R429): arrived[40] RO; level[39:32] RO; peer_gen[23:0] RW*. (* active-only) -/
def oLnkStepStatus : Nat := 0x2118
/-- LNK_STEP_STATS (R429): late[63:48] RO; wait_ns[31:0] RO. (* active-only) -/
def oLnkStepStats : Nat := 0x2120
/-- LNK_STEP_PEERS (R429): lvl5[47:40] … lvl0[7:0] RO. (* active-only) -/
def oLnkStepPeers : Nat := 0x2128
/-- LNK_DOMAIN_SHAPE (R429): standby[63] RW*; zs_m1[14:10] RW*; ys_m1[9:5] RW*; xs_m1[4:0] RW*. (* active-only) -/
def oLnkDomainShape : Nat := 0x2130
/-- QTZ_TREE (R430): root[63] RW; depth[7:0] RO. (* active-only) -/
def oQtzTree : Nat := 0x1140
/-- QTZ_1588_CTL (R430): ptp_domain[19:12] RW; transport[11:10] RW; port[1:0] RW. (* active-only) -/
def oQtz1588Ctl : Nat := 0x1148
/-- QTZ_1588_STATUS (R430): offset_ns[63:32] RO; qual_s[23:16] RO; state[3:0] RO. (* active-only) -/
def oQtz1588Status : Nat := 0x1150
/-- MOD_CKPT_CTL (R454): phase[15:8] RW; release[1] WO; armed[0] RW. (* active-only) -/
def oModCkptCtl : Nat := 0x3000
/-- MOD_CKPT_STATUS (R454): held[63] RO; count[31:0] RO. (* active-only) -/
def oModCkptStatus : Nat := 0x3008
/-- MOD_CKPT_STEP (R454): step[63:0] RO. (* active-only) -/
def oModCkptStep : Nat := 0x3010
/-- MOD_STEP_SET (R454): step[63:0] WO*. (* active-only) -/
def oModStepSet : Nat := 0x3018
/-- MOD_TWIN_CTL (R454): core[57:52] RW*; cluster[51:44] RW*; field[43:38] RW*; win0[35:20] RW*; shift[15:12] RW*; level[3:2] RW*; en[0] RW*. (* active-only) -/
def oModTwinCtl : Nat := 0x3040
/-- MOD_TWIN_FINE_STEP (R454): step[63:0] RW*. (* active-only) -/
def oModTwinFineStep : Nat := 0x3048
/-- MOD_TWIN_STATUS (R454): valid[63] W1C; kind[62:60] RO; log_full[33] RO; fine_done[32] RO; count[31:0] RO. (* active-only) -/
def oModTwinStatus : Nat := 0x3050
/-- MOD_TWIN_DIV_STEP (R454): step[63:0] RO. (* active-only) -/
def oModTwinDivStep : Nat := 0x3058
/-- MOD_TWIN_PARTNER (R454): serial[63:0] RW*. (* active-only) -/
def oModTwinPartner : Nat := 0x3060
/-- MOD_TWIN_FIELDS (R454): fields[63:0] RO. (* active-only) -/
def oModTwinFields : Nat := 0x3068
/-- MOD_TWIN_LIMITS (R454): lag[47:32] RW*; silent_ms[15:0] RW*. (* active-only) -/
def oModTwinLimits : Nat := 0x3070
/-- FLD_TWIN_STEPm (R455): step[63:0] RO. (* active-only) -/
def oFldTwinStep : Nat := 0x0800
/-- FLD_TWIN_LOm (R455): digest[63:0] RO. (* active-only) -/
def oFldTwinLo : Nat := 0x0808
/-- FLD_TWIN_HIm (R455): digest[63:0] RO. (* active-only) -/
def oFldTwinHi : Nat := 0x0810
/-- FLD_TWIN_BUF (R455): addr[33:0] RW*. (* active-only) -/
def oFldTwinBuf : Nat := 0x0A00
/-- SVC_GWWINc_w (R475): base[43:22] RW; limit[21:0] RW. (* active-only) -/
def oSvcGwwin : Nat := 0x2000
/-- SVC_GWPERMc_w (R475): en[63] RW; rd[62] RW; wr[61] RW; ids[39:0] RW. (* active-only) -/
def oSvcGwperm : Nat := 0x2008
/-- SVC_COREWINc_w (R475): core_first[37:24] RW; core_last[23:10] RW; off_base[9:5] RW; off_limit[4:0] RW. (* active-only) -/
def oSvcCorewin : Nat := 0x2800
/-- SVC_COREPERMc_w (R475): en[63] RW; rd[62] RW; wr[61] RW; ids[39:0] RW. (* active-only) -/
def oSvcCoreperm : Nat := 0x2808
/-- SVC_REGWINc_w (R475): base[63:32] RW; limit[31:0] RW. (* active-only) -/
def oSvcRegwin : Nat := 0x6000
/-- SVC_REGPERMc_w (R475): en[63] RW; rd[62] RW; wr[61] RW; ids[39:0] RW. (* active-only) -/
def oSvcRegperm : Nat := 0x6008
/-- SVC_GWDENY (R475): valid[63] W1C; wr[62] RO; class[61:58] RO; id[57:52] RO; addr[47:0] RO. (* active-only) -/
def oSvcGwdeny : Nat := 0x2600
/-- SVC_COREDENY (R475): valid[63] W1C; wr[62] RO; class[61:58] RO; id[57:52] RO; addr[47:0] RO. (* active-only) -/
def oSvcCoredeny : Nat := 0x2E00
/-- SVC_REGDENY (R475): valid[63] W1C; wr[62] RO; class[61:58] RO; id[57:52] RO; addr[47:0] RO. (* active-only) -/
def oSvcRegdeny : Nat := 0x6600
/-- SVC_GWDENY_COUNT (R475): count[63:0] RO. (* active-only) -/
def oSvcGwdenyCount : Nat := 0x2608
/-- SVC_COREDENY_COUNT (R475): count[63:0] RO. (* active-only) -/
def oSvcCoredenyCount : Nat := 0x2E08
/-- SVC_REGDENY_COUNT (R475): count[63:0] RO. (* active-only) -/
def oSvcRegdenyCount : Nat := 0x6608
/-- SVC_QGg (R476): en[63] RW; links[7:0] RW. (* active-only) -/
def oSvcQg : Nat := 0x3800
/-- SVC_RDMA_CTL (R476): rnr_timer[4:0] RW. (* active-only) -/
def oSvcRdmaCtl : Nat := 0x3900
/-- SVC_RWINn_BASE (R476): addr[47:0] RW. (* active-only) -/
def oSvcRwinBase : Nat := 0x4000
/-- SVC_RWINn_SIZE (R476): size[34:0] RW. (* active-only) -/
def oSvcRwinSize : Nat := 0x4008
/-- SVC_RWINn_CTL (R476): en[63] RW; rd[62] RW; wr[61] RW; group[60:56] RW; gen[23:0] RW. (* active-only) -/
def oSvcRwinCtl : Nat := 0x4010
/-- SVC_MGMT (R476): dropped[31:16] RO; port[15:0] RW. (* active-only) -/
def oSvcMgmt : Nat := 0x6800
/-- SVC_MGMT_PEERn (R476): v6[63] RW; addr[31:0] RW. (* active-only) -/
def oSvcMgmtPeer : Nat := 0x6810
/-- SVC_ETH_CTL (R477): pfc_prio[7:5] RW; pfc[4] RW; cnp[3] RW; jumbo[2] RW; en[0] RW. (* active-only) -/
def oSvcEthCtl : Nat := 0x0000
/-- SVC_ETH_STATUS (R477): fec_lock[1] RO; up[0] RO. (* active-only) -/
def oSvcEthStatus : Nat := 0x0008
/-- SVC_ETH_MAC (R477): mac[47:0] RW. (* active-only) -/
def oSvcEthMac : Nat := 0x0010
/-- SVC_ETH_FRAMES (R477): tx[63:32] RO; rx[31:0] RO. (* active-only) -/
def oSvcEthFrames : Nat := 0x0018
/-- SVC_ETH_FEC (R477): corrected[63:32] RO; uncorrected[31:0] RO. (* active-only) -/
def oSvcEthFec : Nat := 0x0020
/-- SVC_RDMA_OPS (R477): reads[63:32] RO; writes[31:0] RO. (* active-only) -/
def oSvcRdmaOps : Nat := 0x0028
/-- SVC_RDMA_NAKS (R477): rnr[63:48] RO; access[47:32] RO; operational[31:16] RO; invalid[15:0] RO. (* active-only) -/
def oSvcRdmaNaks : Nat := 0x0030
/-- HST_IDENT (R478): major[15:8] RO; minor[7:0] RO. (* active-only) -/
def oHstIdent : Nat := 0x7000
/-- HST_CTL (R478): busy_retry_us[15:0] RW. (* active-only) -/
def oHstCtl : Nat := 0x7008
/-- HST_MBm_CMD (R478): tail[6:0] RW. (* active-only) -/
def oHstMbCmd : Nat := 0x7010
/-- HST_MBm_RSP (R478): open[63] RO; lost[31:16] RO; done[6:0] RO. (* active-only) -/
def oHstMbRsp : Nat := 0x7018
/-- HST_APERk (R478): base[17:0] RW. (* active-only) -/
def oHstAper : Nat := 0x7060
/-- HST_APER_STATUS (R478): busy[63:32] RO; denied[31:0] RO. (* active-only) -/
def oHstAperStatus : Nat := 0x7080
/-- HST_APER_ERR (R478): valid[63] W1C; wr[62] RO; status[61:48] RO; addr[47:0] RO. (* active-only) -/
def oHstAperErr : Nat := 0x7088
/-- PWR_CAP_CTL (R506): bank_max_mj[47:32] RW; cap_w[14:0] RW. (* active-only) -/
def oPwrCapCtl : Nat := 0x8000
/-- PWR_SHAPE_CTL (R506): slew_w_ms[63:48] RWH; floor_pct[39:32] RWH; ramp_max_ms[15:0] RWH. (* active-only) -/
def oPwrShapeCtl : Nat := 0x8008
/-- PWR_STATUS (R506): mean_100us_w[63:48] RO; mean_100ms_w[47:32] RO; pace[11:8] RO; state[2:0] RO. (* active-only) -/
def oPwrStatus : Nat := 0x8010
/-- PWR_INPUT (R506): vin_mv[63:48] RO; iin_da[47:32] RO; pin_w[31:16] RO. (* active-only) -/
def oPwrInput : Nat := 0x8018
/-- PWR_ENERGY_IN (R506): mj[63:0] RO. (* active-only) -/
def oPwrEnergyIn : Nat := 0x8020
/-- PWR_HOLDUP (R506): e_high_mj[63:48] RO; e_low_mj[47:32] RO; e_gauge_mj[31:16] RO; v_store[15:0] RO. (* active-only) -/
def oPwrHoldup : Nat := 0x8028
/-- PWR_HOLDUP_CAL (R506): c_cal_uf[31:16] RO; count[15:0] RO. (* active-only) -/
def oPwrHoldupCal : Nat := 0x8030
/-- PWR_BRACE_CTL (R506): brace_max_ms[7:0] RW. (* active-only) -/
def oPwrBraceCtl : Nat := 0x8038
/-- PWR_BRACE_STATUS (R506): count[63:48] RO; last_ms[47:32] RO; min_usable_mj[15:0] RO. (* active-only) -/
def oPwrBraceStatus : Nat := 0x8040
/-- PWR_THERM_CTL (R506): outlet_max[47:32] RW; limit_c[15:8] RW; throttle_c[7:0] RW. (* active-only) -/
def oPwrThermCtl : Nat := 0x8048
/-- PWR_THERM_STATUS (R506): t_max[63:48] RO; field[45:40] RO; limit[1] W1C; throttle[0] RO. (* active-only) -/
def oPwrThermStatus : Nat := 0x8050
/-- PWR_EVENTS (R506): pace_on[63:48] RO; reserve_stops[47:32] RO; limit[31:16] RO; gauge_faults[15:0] RO. (* active-only) -/
def oPwrEvents : Nat := 0x8058
/-- PWR_GOV_REQ (R506): req[0] WO. (* active-only) -/
def oPwrGovReq : Nat := 0x8060
/-- PWR_SHUTDOWN (R506): valid[63] W1C; cause[3:0] RO. (* active-only) -/
def oPwrShutdown : Nat := 0x8068
/-- PWR_ELOG (R506): count[63:48] RO; addr[47:0] RO. (* active-only) -/
def oPwrElog : Nat := 0x8070
/-- FLD_PWR_STATUS (R507): temp[63:48] RO; ghost[2:0] RO. (* active-only) -/
def oFldPwrStatus : Nat := 0x0B00
/-- FLD_ENERGY (R507): nj[63:0] RO. (* active-only) -/
def oFldEnergy : Nat := 0x0B08
/-- FLD_ENERGY_TASKt (R507): nj[63:0] RO. (* active-only) -/
def oFldEnergyTask : Nat := 0x0B10
/-- FLD_ENERGY_SHARED (R507): nj[63:0] RO. (* active-only) -/
def oFldEnergyShared : Nat := 0x0B30
/-- FLD_ENERGY_STEP (R507): nj[63:0] RO. (* active-only) -/
def oFldEnergyStep : Nat := 0x0B38
/-- FLD_DROOP_CTL (R507): thresh_mv[7:0] RWH. (* active-only) -/
def oFldDroopCtl : Nat := 0x0B40
/-- FLD_ACT_COEFc (R507): coef[15:0] RO. (* active-only) -/
def oFldActCoef : Nat := 0x0C00
/-- FLD_ACT_COUNTc (R507): count[63:0] RO. (* active-only) -/
def oFldActCount : Nat := 0x0E00
/-- CAR_BOOT_STATUS (R532): error[63:48] RO; rt_slot[9] RO; s1_slot[8] RO; stage[2:0] RO. (* active-only) -/
def oCarBootStatus : Nat := 0x9000
/-- CAR_IMAGE_INFO (R532): s1_version[63:32] RO; rt_version[31:0] RO. (* active-only) -/
def oCarImageInfo : Nat := 0x9008
/-- CAR_RESET_INFO (R532): count[63:32] RO; cause[7:0] RO. (* active-only) -/
def oCarResetInfo : Nat := 0x9010
/-- CAR_CORE_RESET (R532): done[1] RO; go[0] WO. (* active-only) -/
def oCarCoreReset : Nat := 0x9018
/-- CAR_WDOGn_CTL (R532): en[63] RW; expiries[47:32] RO; timeout_ms[15:0] RW. (* active-only) -/
def oCarWdogCtl : Nat := 0x9040
/-- CAR_WDOGn_KICK (R532): kick[0] WO. (* active-only) -/
def oCarWdogKick : Nat := 0x9048
/-- CAR_UPDATE_STATUS (R532): updates[63:48] RO; failbacks[47:32] RO; takeover_us[31:16] RO; state[2:0] RO. (* active-only) -/
def oCarUpdateStatus : Nat := 0x9090
/-- HST_BOOT_STATUS (R533): error[63:48] RO; stage[2:0] RO. (* active-only) -/
def oHstBootStatus : Nat := 0x70A0
/-- HST_RESET_CTL (R533): key[15:0] WO. (* active-only) -/
def oHstResetCtl : Nat := 0x70A8
/-- MOD_FAULT_STATUS (R554): failed[63] W1C; first_code[47:32] RO; count[31:0] RO. (* active-only) -/
def oModFaultStatus : Nat := 0xA000
/-- MOD_FAULT_SEQ (R554): next[63:32] RO; unreported[31:0] RO. (* active-only) -/
def oModFaultSeq : Nat := 0xA008
/-- MOD_FAULT_LOG (R554): addr[47:0] RO. (* active-only) -/
def oModFaultLog : Nat := 0xA010
/-- MOD_FAULT_LOST (R554): collector[63:32] RO; suppressed[31:0] RO. (* active-only) -/
def oModFaultLost : Nat := 0xA018
/-- MOD_JTAG_IDCODE (R554): idcode[31:0] RO. (* active-only) -/
def oModJtagIdcode : Nat := 0xA020
/-- FLD_FAULT_STATUS (R555): lost[63:32] RO; suppressed[31:8] RO; queued[6:0] RO. (* active-only) -/
def oFldFaultStatus : Nat := 0x3000
/-- FLD_TRACE_CTL (R555): en[63] RW; wrap[62] RW; kinds[15:0] RW. (* active-only) -/
def oFldTraceCtl : Nat := 0x3040
/-- FLD_TRACE_FILTER (R555): core_first[63:50] RW; core_last[49:36] RW. (* active-only) -/
def oFldTraceFilter : Nat := 0x3048
/-- FLD_TRACE_TAG (R555): tag_mask[51:32] RW; tag_match[19:0] RW. (* active-only) -/
def oFldTraceTag : Nat := 0x3050
/-- FLD_TRACE_BUF (R555): size[63:48] RW*; addr[33:0] RW*. (* active-only) -/
def oFldTraceBuf : Nat := 0x3058
/-- FLD_TRACE_STATUS (R555): wrapped[63] RO; stopped[62] RO; dropped[47:32] RO; wr_ptr[31:0] RO. (* active-only) -/
def oFldTraceStatus : Nat := 0x3060

/-- Field registers of chapter 1. -/
def regsField01 : List RegDesc := [
  ⟨.field, oFldIdent, 0x0, 1, 0x0, 1, 0x1,
    [⟨63, 12, .rsv, false⟩, ⟨11, 8, .ro, false⟩, ⟨7, 4, .ro, false⟩, ⟨3, 0, .ro, false⟩]⟩,
  ⟨.field, oFldFenceCtl, 0x0, 1, 0x0, 1, 0x0,
    [⟨63, 16, .rsv, false⟩, ⟨15, 8, .wo, false⟩, ⟨7, 1, .rsv, false⟩, ⟨0, 0, .wo, false⟩]⟩,
  ⟨.field, oFldFenceStatus, 0x0, 1, 0x0, 1, 0x0,
    [⟨63, 16, .rsv, false⟩, ⟨15, 8, .ro, false⟩, ⟨7, 1, .rsv, false⟩, ⟨0, 0, .ro, false⟩]⟩,
  ⟨.field, oFldFenceDrops, 0x0, 1, 0x0, 1, 0x0,
    [⟨63, 0, .ro, false⟩]⟩,
  ⟨.field, oFldRepairRow, 0x8, 16, 0x0, 1, 0x8080808080808080,
    [⟨63, 0, .rw, true⟩]⟩,
  ⟨.field, oFldSpareMap, 0x0, 1, 0x0, 1, 0x0,
    [⟨63, 16, .rsv, false⟩, ⟨15, 15, .rwh, false⟩, ⟨14, 12, .rwh, false⟩, ⟨11, 8, .rsv, false⟩, ⟨7, 7, .rw, true⟩, ⟨6, 5, .rsv, false⟩, ⟨4, 0, .rw, true⟩]⟩]

/-- Module registers of chapter 1. -/
def regsModule01 : List RegDesc := [
  ⟨.module, oModIdent, 0x0, 1, 0x0, 1, 0x64008800000000,
    [⟨63, 48, .ro, false⟩, ⟨47, 44, .ro, false⟩, ⟨43, 40, .ro, false⟩, ⟨39, 36, .ro, false⟩, ⟨35, 32, .ro, false⟩, ⟨31, 0, .rsv, false⟩]⟩,
  ⟨.module, oModFieldFenced, 0x0, 1, 0x0, 1, 0x0,
    [⟨63, 0, .ro, false⟩]⟩]

/-- Core registers of chapter 2. -/
def regsCore02 : List RegDesc := [
  ⟨.core, oCoreState, 0x0, 1, 0x0, 1, 0x0,
    [⟨63, 24, .rsv, false⟩, ⟨23, 23, .ro, false⟩, ⟨22, 20, .ro, false⟩, ⟨19, 18, .rsv, false⟩, ⟨17, 16, .ro, false⟩, ⟨15, 8, .rsv, false⟩, ⟨7, 0, .ro, false⟩]⟩,
  ⟨.core, oCoreCtl, 0x0, 1, 0x0, 1, 0x0,
    [⟨63, 12, .rsv, false⟩, ⟨11, 8, .wo, false⟩, ⟨7, 1, .rsv, false⟩, ⟨0, 0, .wo, false⟩]⟩,
  ⟨.core, oCorePhase, 0x0, 1, 0x0, 1, 0x0,
    [⟨63, 8, .rsv, false⟩, ⟨7, 0, .ro, false⟩]⟩,
  ⟨.core, oCoreStep, 0x0, 1, 0x0, 1, 0x0,
    [⟨63, 0, .ro, false⟩]⟩,
  ⟨.core, oCoreQueueStatus, 0x0, 1, 0x0, 1, 0x0,
    [⟨63, 15, .rsv, false⟩, ⟨14, 12, .ro, false⟩, ⟨11, 8, .ro, false⟩, ⟨7, 7, .rsv, false⟩, ⟨6, 4, .ro, false⟩, ⟨3, 3, .rsv, false⟩, ⟨2, 0, .ro, false⟩]⟩,
  ⟨.core, oCoreFaultInfo, 0x0, 1, 0x0, 1, 0x0,
    [⟨63, 63, .w1c, false⟩, ⟨62, 43, .rsv, false⟩, ⟨42, 40, .ro, false⟩, ⟨39, 20, .ro, false⟩, ⟨19, 0, .ro, false⟩]⟩,
  ⟨.core, oCoreRefusals, 0x0, 1, 0x0, 1, 0x0,
    [⟨63, 32, .ro, false⟩, ⟨31, 0, .ro, false⟩]⟩,
  ⟨.core, oCoreTaskImem, 0x8, 4, 0x0, 1, 0x0,
    [⟨63, 25, .rsv, false⟩, ⟨24, 24, .rw, true⟩, ⟨23, 16, .rw, true⟩, ⟨15, 8, .rsv, false⟩, ⟨7, 0, .rw, true⟩]⟩,
  ⟨.core, oCoreTaskDeadline, 0x8, 4, 0x0, 1, 0x0,
    [⟨63, 32, .rsv, false⟩, ⟨31, 0, .rw, true⟩]⟩,
  ⟨.core, oCoreHorizon, 0x8, 8, 0x0, 1, 0x1000000,
    [⟨63, 32, .rsv, false⟩, ⟨31, 0, .rw, true⟩]⟩,
  ⟨.core, oCoreLoopinit, 0x8, 4, 0x0, 1, 0x0,
    [⟨63, 32, .rsv, false⟩, ⟨31, 0, .rw, true⟩]⟩,
  ⟨.core, oCoreEntry, 0x8, 16, 0x0, 1, 0x0,
    [⟨63, 11, .rsv, false⟩, ⟨10, 10, .rw, true⟩, ⟨9, 8, .rw, true⟩, ⟨7, 0, .rw, true⟩]⟩,
  ⟨.core, oCoreOvl, 0x8, 8, 0x0, 1, 0x0,
    [⟨63, 56, .rw, true⟩, ⟨55, 48, .rw, true⟩, ⟨47, 0, .rw, true⟩]⟩,
  ⟨.core, oCoreAdr, 0x8, 32, 0x0, 1, 0x0,
    [⟨63, 48, .rw, true⟩, ⟨47, 0, .rw, true⟩]⟩,
  ⟨.core, oCoreRing, 0x8, 4, 0x0, 1, 0x0,
    [⟨63, 20, .rsv, false⟩, ⟨19, 19, .rw, true⟩, ⟨18, 14, .rw, true⟩, ⟨13, 10, .rw, true⟩, ⟨9, 6, .rsv, false⟩, ⟨5, 0, .rw, true⟩]⟩,
  ⟨.core, oCoreRingStatus, 0x0, 1, 0x0, 1, 0x0,
    [⟨63, 32, .ro, false⟩, ⟨31, 22, .rsv, false⟩, ⟨21, 16, .ro, false⟩, ⟨15, 15, .rsv, false⟩, ⟨14, 10, .ro, false⟩, ⟨9, 5, .ro, false⟩, ⟨4, 4, .rsv, false⟩, ⟨3, 0, .ro, false⟩]⟩,
  ⟨.core, oCoreFetchStatus, 0x0, 1, 0x0, 1, 0x0,
    [⟨63, 12, .rsv, false⟩, ⟨11, 8, .ro, false⟩, ⟨7, 0, .ro, false⟩]⟩]

/-- Core registers of chapter 3. -/
def regsCore03 : List RegDesc := [
  ⟨.core, oCoreTaskTs, 0x8, 4, 0x0, 1, 0x0,
    [⟨63, 27, .rsv, false⟩, ⟨26, 16, .rw, true⟩, ⟨15, 11, .rsv, false⟩, ⟨10, 0, .rw, true⟩]⟩,
  ⟨.core, oCoreTsConflict, 0x0, 1, 0x0, 1, 0x0,
    [⟨63, 63, .w1c, false⟩, ⟨62, 30, .rsv, false⟩, ⟨29, 29, .ro, false⟩, ⟨28, 28, .ro, false⟩, ⟨27, 25, .ro, false⟩, ⟨24, 22, .ro, false⟩, ⟨21, 11, .ro, false⟩, ⟨10, 0, .ro, false⟩]⟩,
  ⟨.core, oCoreTsCombine, 0x0, 1, 0x0, 1, 0x0,
    [⟨63, 32, .ro, false⟩, ⟨31, 4, .ro, false⟩, ⟨3, 0, .ro, false⟩]⟩,
  ⟨.core, oCoreTsBgwait, 0x0, 1, 0x0, 1, 0x0,
    [⟨63, 0, .ro, false⟩]⟩,
  ⟨.core, oCoreTsConflictCount, 0x0, 1, 0x0, 1, 0x0,
    [⟨63, 0, .ro, false⟩]⟩]

/-- Core registers of chapter 4. -/
def regsCore04 : List RegDesc := [
  ⟨.core, oCoreAcc, 0x8, 64, 0x0, 1, 0x0,
    [⟨63, 41, .rsv, false⟩, ⟨40, 16, .rw, true⟩, ⟨15, 15, .rw, true⟩, ⟨14, 14, .rw, true⟩, ⟨13, 13, .rsv, false⟩, ⟨12, 12, .rw, true⟩, ⟨11, 8, .rsv, false⟩, ⟨7, 0, .rw, true⟩]⟩,
  ⟨.core, oCoreArithFlags, 0x0, 1, 0x0, 1, 0x0,
    [⟨63, 10, .rsv, false⟩, ⟨9, 9, .w1c, false⟩, ⟨8, 8, .w1c, false⟩, ⟨7, 5, .rsv, false⟩, ⟨4, 4, .w1c, false⟩, ⟨3, 3, .w1c, false⟩, ⟨2, 2, .w1c, false⟩, ⟨1, 1, .w1c, false⟩, ⟨0, 0, .w1c, false⟩]⟩,
  ⟨.core, oCoreRng, 0x0, 1, 0x0, 1, 0x0,
    [⟨63, 32, .rsv, false⟩, ⟨31, 0, .rw, true⟩]⟩]

/-- Module registers of chapter 4. -/
def regsModule04 : List RegDesc := [
  ⟨.module, oModRngSeed, 0x0, 1, 0x0, 1, 0x0,
    [⟨63, 0, .rwh, false⟩]⟩]

/-- Core registers of chapter 5. -/
def regsCore05 : List RegDesc := [
  ⟨.core, oCoreMxStatus, 0x0, 1, 0x0, 1, 0x20FFFF,
    [⟨63, 36, .rsv, false⟩, ⟨35, 32, .rw, true⟩, ⟨31, 28, .rw, true⟩, ⟨27, 24, .rw, true⟩, ⟨23, 22, .rsv, false⟩, ⟨21, 16, .ro, false⟩, ⟨15, 0, .ro, false⟩]⟩,
  ⟨.core, oCoreMxSteps, 0x0, 1, 0x0, 1, 0x0,
    [⟨63, 0, .ro, false⟩]⟩,
  ⟨.core, oCoreMxGhosts, 0x0, 1, 0x0, 1, 0x0,
    [⟨63, 0, .ro, false⟩]⟩,
  ⟨.core, oCoreConveyor, 0x0, 1, 0x0, 1, 0x0,
    [⟨63, 32, .ro, false⟩, ⟨31, 16, .ro, false⟩, ⟨15, 0, .ro, false⟩]⟩,
  ⟨.core, oCoreWlCur, 0x8, 4, 0x0, 1, 0x0,
    [⟨63, 0, .rw, true⟩]⟩,
  ⟨.core, oCoreWlShd, 0x8, 4, 0x0, 1, 0x0,
    [⟨63, 0, .rw, true⟩]⟩,
  ⟨.core, oCoreMxScales, 0x0, 1, 0x0, 1, 0x0,
    [⟨63, 16, .rsv, false⟩, ⟨15, 8, .rw, true⟩, ⟨7, 0, .rw, true⟩]⟩,
  ⟨.core, oCoreMxAscale, 0x8, 8, 0x0, 1, 0x0,
    [⟨63, 0, .rw, true⟩]⟩]

/-- Core registers of chapter 6. -/
def regsCore06 : List RegDesc := [
  ⟨.core, oCoreVdesc, 0x8, 16, 0x0, 1, 0x2000000000000000,
    [⟨63, 62, .rw, true⟩, ⟨61, 58, .rw, true⟩, ⟨57, 57, .rw, true⟩, ⟨56, 50, .rw, true⟩, ⟨49, 48, .rw, true⟩, ⟨47, 40, .rw, true⟩, ⟨39, 35, .rsv, false⟩, ⟨34, 24, .rw, true⟩, ⟨23, 0, .rsv, false⟩]⟩,
  ⟨.core, oCoreVxVectors, 0x0, 1, 0x0, 1, 0x0,
    [⟨63, 0, .ro, false⟩]⟩,
  ⟨.core, oCoreVxStats, 0x0, 1, 0x0, 1, 0x0,
    [⟨63, 32, .ro, false⟩, ⟨31, 0, .ro, false⟩]⟩]

/-- Cluster registers of chapter 7. -/
def regsCluster07 : List RegDesc := [
  ⟨.cluster, oCluState, 0x0, 1, 0x0, 1, 0x0,
    [⟨63, 28, .rsv, false⟩, ⟨27, 16, .ro, false⟩, ⟨15, 15, .rsv, false⟩, ⟨14, 8, .ro, false⟩, ⟨7, 5, .rsv, false⟩, ⟨4, 4, .ro, false⟩, ⟨3, 3, .rsv, false⟩, ⟨2, 0, .ro, false⟩]⟩,
  ⟨.cluster, oCluCtl, 0x0, 1, 0x0, 1, 0x0,
    [⟨63, 28, .rsv, false⟩, ⟨27, 16, .wo, false⟩, ⟨15, 1, .rsv, false⟩, ⟨0, 0, .wo, false⟩]⟩,
  ⟨.cluster, oCluArrived, 0x0, 1, 0x0, 1, 0x0,
    [⟨63, 0, .ro, false⟩]⟩,
  ⟨.cluster, oCluFaultInfo, 0x0, 1, 0x0, 1, 0x0,
    [⟨63, 63, .w1c, false⟩, ⟨62, 48, .rsv, false⟩, ⟨47, 44, .ro, false⟩, ⟨43, 28, .rsv, false⟩, ⟨27, 16, .ro, false⟩, ⟨15, 0, .rsv, false⟩]⟩,
  ⟨.cluster, oCluNext, 0x8, 4, 0x0, 1, 0x0,
    [⟨63, 0, .rw, true⟩]⟩,
  ⟨.cluster, oCluHorizon, 0x8, 8, 0x0, 1, 0x1000000,
    [⟨63, 32, .rsv, false⟩, ⟨31, 0, .rw, true⟩]⟩,
  ⟨.cluster, oCluNotify, 0x0, 1, 0x0, 1, 0x0,
    [⟨63, 63, .w1c, false⟩, ⟨62, 48, .rsv, false⟩, ⟨47, 32, .ro, false⟩, ⟨31, 0, .ro, false⟩]⟩,
  ⟨.cluster, oCluStats, 0x0, 1, 0x0, 1, 0x0,
    [⟨63, 32, .ro, false⟩, ⟨31, 16, .ro, false⟩, ⟨15, 0, .ro, false⟩]⟩,
  ⟨.cluster, oCluInboxLost, 0x0, 1, 0x0, 1, 0x0,
    [⟨63, 0, .ro, false⟩]⟩,
  ⟨.cluster, oCluDpTime, 0x0, 1, 0x0, 1, 0x0,
    [⟨63, 32, .ro, false⟩, ⟨31, 0, .ro, false⟩]⟩,
  ⟨.cluster, oCluFenceCtl, 0x0, 1, 0x0, 1, 0x0,
    [⟨63, 16, .rsv, false⟩, ⟨15, 8, .wo, false⟩, ⟨7, 1, .rsv, false⟩, ⟨0, 0, .wo, false⟩]⟩,
  ⟨.cluster, oCluFenceStatus, 0x0, 1, 0x0, 1, 0x0,
    [⟨63, 16, .rsv, false⟩, ⟨15, 8, .ro, false⟩, ⟨7, 1, .rsv, false⟩, ⟨0, 0, .ro, false⟩]⟩,
  ⟨.cluster, oCluRefusals, 0x0, 1, 0x0, 1, 0x0,
    [⟨63, 32, .ro, false⟩, ⟨31, 0, .ro, false⟩]⟩,
  ⟨.cluster, oCluInbox, 0x8, 256, 0x0, 1, 0x0,
    [⟨63, 60, .ro, false⟩, ⟨59, 50, .rsv, false⟩, ⟨49, 49, .ro, false⟩, ⟨48, 48, .ro, false⟩, ⟨47, 32, .ro, false⟩, ⟨31, 0, .ro, false⟩]⟩]

/-- Core registers of chapter 8. -/
def regsCore08 : List RegDesc := [
  ⟨.core, oCoreCtrval, 0x8, 8, 0x0, 1, 0x0,
    [⟨63, 0, .rw, true⟩]⟩,
  ⟨.core, oCoreCtrStep, 0x8, 8, 0x0, 1, 0x0,
    [⟨63, 0, .rw, true⟩]⟩,
  ⟨.core, oCoreCtrMode, 0x0, 1, 0x0, 1, 0x0,
    [⟨63, 0, .rw, true⟩]⟩,
  ⟨.core, oCoreCtrExt, 0x0, 1, 0x0, 1, 0x0,
    [⟨63, 32, .rsv, false⟩, ⟨31, 0, .rw, true⟩]⟩,
  ⟨.core, oCoreCtrStatus, 0x0, 1, 0x0, 1, 0x0,
    [⟨63, 63, .w1c, false⟩, ⟨62, 30, .rsv, false⟩, ⟨29, 29, .ro, false⟩, ⟨28, 24, .ro, false⟩, ⟨23, 20, .rsv, false⟩, ⟨19, 16, .rw, true⟩, ⟨15, 0, .ro, false⟩]⟩,
  ⟨.core, oCoreWaitStats, 0x0, 1, 0x0, 1, 0x0,
    [⟨63, 32, .ro, false⟩, ⟨31, 0, .ro, false⟩]⟩,
  ⟨.core, oCoreGar, 0x8, 8, 0x0, 1, 0x0,
    [⟨63, 32, .rsv, false⟩, ⟨31, 16, .ro, false⟩, ⟨15, 11, .rsv, false⟩, ⟨10, 10, .ro, false⟩, ⟨9, 6, .rw, true⟩, ⟨5, 5, .rsv, false⟩, ⟨4, 0, .rw, true⟩]⟩]

/-- Cluster registers of chapter 8. -/
def regsCluster08 : List RegDesc := [
  ⟨.cluster, oCluGarMask, 0x8, 8, 0x0, 1, 0x0,
    [⟨63, 0, .rwh, false⟩]⟩,
  ⟨.cluster, oCluWatchCtl, 0x0, 1, 0x0, 1, 0x1,
    [⟨63, 1, .rsv, false⟩, ⟨0, 0, .rw, false⟩]⟩,
  ⟨.cluster, oCluDeadlock, 0x0, 1, 0x0, 1, 0x0,
    [⟨63, 63, .w1c, false⟩, ⟨62, 48, .rsv, false⟩, ⟨47, 32, .ro, false⟩, ⟨31, 0, .ro, false⟩]⟩,
  ⟨.cluster, oCluDlWaiting, 0x0, 1, 0x0, 1, 0x0,
    [⟨63, 0, .ro, false⟩]⟩,
  ⟨.cluster, oCluDlHeld, 0x0, 1, 0x0, 1, 0x0,
    [⟨63, 0, .ro, false⟩]⟩]

/-- Field registers of chapter 8. -/
def regsField08 : List RegDesc := [
  ⟨.field, oGarFmask, 0x20, 8, 0x8, 4, 0x0,
    [⟨63, 0, .rwh, false⟩]⟩,
  ⟨.field, oGarFldStatus, 0x0, 1, 0x0, 1, 0x0,
    [⟨63, 25, .rsv, false⟩, ⟨24, 24, .w1c, false⟩, ⟨23, 16, .rsv, false⟩, ⟨15, 8, .w1c, false⟩, ⟨7, 0, .ro, false⟩]⟩,
  ⟨.field, oFldSlack, 0x0, 1, 0x0, 1, 0x0,
    [⟨63, 0, .ro, false⟩]⟩,
  ⟨.field, oFldSlackLast, 0x0, 1, 0x0, 1, 0x0,
    [⟨63, 0, .ro, false⟩]⟩]

/-- Module registers of chapter 8. -/
def regsModule08 : List RegDesc := [
  ⟨.module, oGarLineFields, 0x8, 8, 0x0, 1, 0x0,
    [⟨63, 0, .rwh, false⟩]⟩,
  ⟨.module, oGarLineCtl, 0x8, 8, 0x0, 1, 0x0,
    [⟨63, 12, .rsv, false⟩, ⟨11, 10, .ro, false⟩, ⟨9, 9, .rsv, false⟩, ⟨8, 8, .rw, false⟩, ⟨7, 1, .rsv, false⟩, ⟨0, 0, .ro, false⟩]⟩,
  ⟨.module, oGarRealign, 0x0, 1, 0x0, 1, 0x100000000000007,
    [⟨63, 32, .rw, true⟩, ⟨31, 5, .rsv, false⟩, ⟨4, 4, .rw, true⟩, ⟨3, 3, .rsv, false⟩, ⟨2, 0, .rw, true⟩]⟩,
  ⟨.module, oGarFbStats, 0x0, 1, 0x0, 1, 0x0,
    [⟨63, 32, .ro, false⟩, ⟨31, 0, .ro, false⟩]⟩,
  ⟨.module, oGarFbexpG, 0x80, 8, 0x8, 16, 0x0,
    [⟨63, 53, .rsv, false⟩, ⟨52, 32, .ro, false⟩, ⟨31, 21, .rsv, false⟩, ⟨20, 0, .rw, true⟩]⟩]

/-- Core registers of chapter 9. -/
def regsCore09 : List RegDesc := [
  ⟨.core, oCoreChan, 0x8, 64, 0x0, 1, 0x0,
    [⟨63, 29, .rw, true⟩, ⟨28, 0, .rsv, false⟩]⟩,
  ⟨.core, oCoreChstat, 0x8, 64, 0x0, 1, 0x0,
    [⟨63, 63, .w1c, false⟩, ⟨62, 62, .w1c, false⟩, ⟨61, 61, .w1c, false⟩, ⟨60, 60, .w1c, false⟩, ⟨59, 59, .w1c, false⟩, ⟨58, 58, .w1c, false⟩, ⟨57, 57, .w1c, false⟩, ⟨56, 40, .rsv, false⟩, ⟨39, 34, .rw, true⟩, ⟨33, 30, .rsv, false⟩, ⟨29, 21, .rw, true⟩, ⟨20, 20, .rsv, false⟩, ⟨19, 16, .rw, true⟩, ⟨15, 8, .rsv, false⟩, ⟨7, 0, .rw, true⟩]⟩,
  ⟨.core, oCoreChmsg, 0x10, 64, 0x0, 1, 0x0,
    [⟨63, 32, .ro, false⟩, ⟨31, 0, .ro, false⟩]⟩,
  ⟨.core, oCoreChstall, 0x10, 64, 0x0, 1, 0x0,
    [⟨63, 0, .ro, false⟩]⟩,
  ⟨.core, oCoreSlot, 0x8, 64, 0x0, 1, 0x0,
    [⟨63, 15, .rsv, false⟩, ⟨14, 12, .rwh, false⟩, ⟨11, 9, .rwh, false⟩, ⟨8, 6, .rwh, false⟩, ⟨5, 3, .rwh, false⟩, ⟨2, 0, .rwh, false⟩]⟩,
  ⟨.core, oCoreMeshStatus, 0x0, 1, 0x0, 1, 0x0,
    [⟨63, 63, .ro, false⟩, ⟨62, 55, .rsv, false⟩, ⟨54, 48, .ro, false⟩, ⟨47, 26, .rsv, false⟩, ⟨25, 24, .ro, false⟩, ⟨23, 18, .ro, false⟩, ⟨17, 12, .ro, false⟩, ⟨11, 6, .ro, false⟩, ⟨5, 0, .ro, false⟩]⟩,
  ⟨.core, oCoreMeshFault, 0x0, 1, 0x0, 1, 0x0,
    [⟨63, 63, .w1c, false⟩, ⟨62, 59, .rsv, false⟩, ⟨58, 56, .ro, false⟩, ⟨55, 50, .ro, false⟩, ⟨49, 40, .rsv, false⟩, ⟨39, 20, .ro, false⟩, ⟨19, 0, .ro, false⟩]⟩]

/-- Field registers of chapter 9. -/
def regsField09 : List RegDesc := [
  ⟨.field, oFldXingStatus, 0x8, 4, 0x0, 1, 0x0,
    [⟨63, 48, .rsv, false⟩, ⟨47, 32, .ro, false⟩, ⟨31, 8, .rsv, false⟩, ⟨7, 0, .ro, false⟩]⟩]

/-- Core registers of chapter 10. -/
def regsCore10 : List RegDesc := [
  ⟨.core, oCoreMemStats, 0x0, 1, 0x0, 1, 0x0,
    [⟨63, 32, .ro, false⟩, ⟨31, 0, .ro, false⟩]⟩,
  ⟨.core, oCoreMemLat, 0x0, 1, 0x0, 1, 0x0,
    [⟨63, 48, .ro, false⟩, ⟨47, 32, .ro, false⟩, ⟨31, 0, .ro, false⟩]⟩,
  ⟨.core, oCoreMemFault, 0x0, 1, 0x0, 1, 0x0,
    [⟨63, 63, .w1c, false⟩, ⟨62, 60, .ro, false⟩, ⟨59, 48, .rsv, false⟩, ⟨47, 0, .ro, false⟩]⟩,
  ⟨.core, oCoreIdx, 0x8, 32, 0x0, 1, 0x0,
    [⟨63, 40, .rsv, false⟩, ⟨39, 36, .rw, true⟩, ⟨35, 32, .rsv, false⟩, ⟨31, 0, .rw, true⟩]⟩]

/-- Cluster registers of chapter 10. -/
def regsCluster10 : List RegDesc := [
  ⟨.cluster, oCluMemStats, 0x0, 1, 0x0, 1, 0x0,
    [⟨63, 32, .ro, false⟩, ⟨31, 0, .ro, false⟩]⟩,
  ⟨.cluster, oCluMemStatus, 0x0, 1, 0x0, 1, 0x0,
    [⟨63, 23, .rsv, false⟩, ⟨22, 16, .ro, false⟩, ⟨15, 10, .rsv, false⟩, ⟨9, 0, .ro, false⟩]⟩]

/-- Field registers of chapter 10. -/
def regsField10 : List RegDesc := [
  ⟨.field, oGwStatus, 0x0, 1, 0x0, 1, 0x0,
    [⟨63, 45, .rsv, false⟩, ⟨44, 44, .ro, false⟩, ⟨43, 28, .rsv, false⟩, ⟨27, 16, .ro, false⟩, ⟨15, 12, .rsv, false⟩, ⟨11, 0, .ro, false⟩]⟩,
  ⟨.field, oGwClassCtl, 0x0, 1, 0x0, 1, 0x408008001000000,
    [⟨63, 56, .rw, false⟩, ⟨55, 48, .rw, false⟩, ⟨47, 44, .rsv, false⟩, ⟨43, 32, .rw, false⟩, ⟨31, 28, .rsv, false⟩, ⟨27, 16, .rw, false⟩, ⟨15, 0, .rsv, false⟩]⟩,
  ⟨.field, oGwBudget, 0x0, 1, 0x0, 1, 0x186A000030D40,
    [⟨63, 32, .rw, false⟩, ⟨31, 0, .rw, false⟩]⟩,
  ⟨.field, oGwClassCount, 0x10, 4, 0x0, 1, 0x0,
    [⟨63, 32, .ro, false⟩, ⟨31, 0, .ro, false⟩]⟩,
  ⟨.field, oGwClassWait, 0x10, 4, 0x0, 1, 0x0,
    [⟨63, 0, .ro, false⟩]⟩,
  ⟨.field, oGwEcc, 0x0, 1, 0x0, 1, 0x0,
    [⟨63, 32, .ro, false⟩, ⟨31, 16, .ro, false⟩, ⟨15, 0, .ro, false⟩]⟩,
  ⟨.field, oGwEccLast, 0x0, 1, 0x0, 1, 0x0,
    [⟨63, 63, .w1c, false⟩, ⟨62, 62, .ro, false⟩, ⟨61, 61, .ro, false⟩, ⟨60, 39, .rsv, false⟩, ⟨38, 34, .ro, false⟩, ⟨33, 0, .ro, false⟩]⟩,
  ⟨.field, oGwScrub, 0x0, 1, 0x0, 1, 0x8000000000000000,
    [⟨63, 63, .rw, false⟩, ⟨62, 48, .rsv, false⟩, ⟨47, 32, .ro, false⟩, ⟨31, 23, .rsv, false⟩, ⟨22, 0, .ro, false⟩]⟩,
  ⟨.field, oGwFenceCount, 0x0, 1, 0x0, 1, 0x0,
    [⟨63, 0, .ro, false⟩]⟩,
  ⟨.field, oGwProbeBase, 0x0, 1, 0x0, 1, 0x0,
    [⟨63, 34, .rsv, false⟩, ⟨33, 0, .rw, false⟩]⟩,
  ⟨.field, oGwProbeSize, 0x0, 1, 0x0, 1, 0x0,
    [⟨63, 35, .rsv, false⟩, ⟨34, 0, .rw, false⟩]⟩,
  ⟨.field, oGwProbeResult, 0x0, 1, 0x0, 1, 0x0,
    [⟨63, 63, .ro, false⟩, ⟨62, 16, .rsv, false⟩, ⟨15, 0, .ro, false⟩]⟩,
  ⟨.field, oGwChanEcc, 0x8, 32, 0x0, 1, 0x0,
    [⟨63, 32, .ro, false⟩, ⟨31, 0, .ro, false⟩]⟩]

/-- Module registers of chapter 11. -/
def regsModule11 : List RegDesc := [
  ⟨.module, oClkFreqCtl, 0x0, 1, 0x0, 1, 0xC,
    [⟨63, 9, .rsv, false⟩, ⟨8, 8, .rwh, false⟩, ⟨7, 5, .rsv, false⟩, ⟨4, 0, .rwh, false⟩]⟩,
  ⟨.module, oClkFreqStatus, 0x0, 1, 0x0, 1, 0x3C00000000C,
    [⟨63, 48, .rsv, false⟩, ⟨47, 32, .ro, false⟩, ⟨31, 19, .rsv, false⟩, ⟨18, 18, .ro, false⟩, ⟨17, 17, .ro, false⟩, ⟨16, 16, .ro, false⟩, ⟨15, 13, .rsv, false⟩, ⟨12, 8, .ro, false⟩, ⟨7, 5, .rsv, false⟩, ⟨4, 0, .ro, false⟩]⟩,
  ⟨.module, oClkHushCtl, 0x0, 1, 0x0, 1, 0x0,
    [⟨63, 4, .rsv, false⟩, ⟨3, 3, .wo, false⟩, ⟨2, 2, .wo, false⟩, ⟨1, 1, .rsv, false⟩, ⟨0, 0, .rw, false⟩]⟩,
  ⟨.module, oClkHushStatus, 0x0, 1, 0x0, 1, 0x0,
    [⟨63, 36, .rsv, false⟩, ⟨35, 35, .w1c, false⟩, ⟨34, 34, .ro, false⟩, ⟨33, 32, .ro, false⟩, ⟨31, 0, .ro, false⟩]⟩,
  ⟨.module, oClkHushStats, 0x0, 1, 0x0, 1, 0x0,
    [⟨63, 32, .ro, false⟩, ⟨31, 16, .ro, false⟩, ⟨15, 0, .ro, false⟩]⟩,
  ⟨.module, oClkRefCtl, 0x0, 1, 0x0, 1, 0x0,
    [⟨63, 1, .rsv, false⟩, ⟨0, 0, .rwh, false⟩]⟩,
  ⟨.module, oClkRefStatus, 0x0, 1, 0x0, 1, 0x0,
    [⟨63, 44, .rsv, false⟩, ⟨43, 32, .ro, false⟩, ⟨31, 6, .rsv, false⟩, ⟨5, 5, .ro, false⟩, ⟨4, 4, .ro, false⟩, ⟨3, 3, .ro, false⟩, ⟨2, 2, .ro, false⟩, ⟨1, 1, .ro, false⟩, ⟨0, 0, .ro, false⟩]⟩,
  ⟨.module, oClkRefEvents, 0x0, 1, 0x0, 1, 0x0,
    [⟨63, 32, .ro, false⟩, ⟨31, 16, .ro, false⟩, ⟨15, 0, .ro, false⟩]⟩,
  ⟨.module, oClkGovCtl, 0x0, 1, 0x0, 1, 0x1020002,
    [⟨63, 28, .rsv, false⟩, ⟨27, 24, .rw, false⟩, ⟨23, 20, .rsv, false⟩, ⟨19, 8, .rw, false⟩, ⟨7, 4, .rsv, false⟩, ⟨3, 0, .rw, false⟩]⟩,
  ⟨.module, oClkStart, 0x0, 1, 0x0, 1, 0x0,
    [⟨63, 0, .wo, true⟩]⟩,
  ⟨.module, oQtzTime, 0x0, 1, 0x0, 1, 0x0,
    [⟨63, 0, .ro, false⟩]⟩,
  ⟨.module, oQtzSet, 0x0, 1, 0x0, 1, 0x0,
    [⟨63, 0, .wo, true⟩]⟩,
  ⟨.module, oQtzCtl, 0x0, 1, 0x0, 1, 0x200,
    [⟨63, 10, .rsv, false⟩, ⟨9, 9, .rwh, false⟩, ⟨8, 3, .rsv, false⟩, ⟨2, 2, .rw, false⟩, ⟨1, 1, .rw, false⟩, ⟨0, 0, .rsv, false⟩]⟩,
  ⟨.module, oQtzStatus, 0x0, 1, 0x0, 1, 0x0,
    [⟨63, 32, .ro, false⟩, ⟨31, 16, .rsv, false⟩, ⟨15, 4, .ro, false⟩, ⟨3, 3, .ro, false⟩, ⟨2, 1, .ro, false⟩, ⟨0, 0, .ro, false⟩]⟩,
  ⟨.module, oQtzSteer, 0x0, 1, 0x0, 1, 0x0,
    [⟨63, 32, .ro, false⟩, ⟨31, 0, .ro, false⟩]⟩]

/-- Field registers of chapter 11. -/
def regsField11 : List RegDesc := [
  ⟨.field, oFldClkStatus, 0x0, 1, 0x0, 1, 0x0,
    [⟨63, 17, .rsv, false⟩, ⟨16, 16, .ro, false⟩, ⟨15, 15, .ro, false⟩, ⟨14, 8, .rsv, false⟩, ⟨7, 0, .ro, false⟩]⟩,
  ⟨.field, oFldStretchStats, 0x0, 1, 0x0, 1, 0x0,
    [⟨63, 32, .ro, false⟩, ⟨31, 16, .ro, false⟩, ⟨15, 0, .ro, false⟩]⟩,
  ⟨.field, oFldQtzTime, 0x0, 1, 0x0, 1, 0x0,
    [⟨63, 0, .ro, false⟩]⟩,
  ⟨.field, oFldQtzCorr, 0x0, 1, 0x0, 1, 0x0,
    [⟨63, 48, .ro, false⟩, ⟨47, 32, .ro, false⟩, ⟨31, 0, .ro, false⟩]⟩,
  ⟨.field, oFldDroopEn, 0x8, 4, 0x0, 1, 0xFFFFFFFFFFFFFFFF,
    [⟨63, 0, .rwh, false⟩]⟩]

/-- Link registers of chapter 12. -/
def regsLink12 : List RegDesc := [
  ⟨.link, oLnkCtl, 0x0, 1, 0x0, 1, 0x8,
    [⟨63, 4, .rsv, false⟩, ⟨3, 3, .rw, false⟩, ⟨2, 2, .wo, false⟩, ⟨1, 1, .wo, false⟩, ⟨0, 0, .rw, false⟩]⟩,
  ⟨.link, oLnkStatus, 0x0, 1, 0x0, 1, 0x0,
    [⟨63, 24, .rsv, false⟩, ⟨23, 23, .ro, false⟩, ⟨22, 21, .ro, false⟩, ⟨20, 19, .ro, false⟩, ⟨18, 18, .ro, false⟩, ⟨17, 16, .rsv, false⟩, ⟨15, 8, .ro, false⟩, ⟨7, 3, .rsv, false⟩, ⟨2, 0, .ro, false⟩]⟩,
  ⟨.link, oLnkPeerExpect, 0x0, 1, 0x0, 1, 0x0,
    [⟨63, 63, .rw, false⟩, ⟨62, 48, .rsv, false⟩, ⟨47, 32, .rw, false⟩, ⟨31, 30, .rsv, false⟩, ⟨29, 25, .rw, false⟩, ⟨24, 20, .rw, false⟩, ⟨19, 15, .rw, false⟩, ⟨14, 6, .rsv, false⟩, ⟨5, 0, .rw, false⟩]⟩,
  ⟨.link, oLnkPeerId, 0x0, 1, 0x0, 1, 0x0,
    [⟨63, 0, .ro, false⟩]⟩,
  ⟨.link, oLnkPeerInfo, 0x0, 1, 0x0, 1, 0x0,
    [⟨63, 63, .ro, false⟩, ⟨62, 56, .rsv, false⟩, ⟨55, 48, .ro, false⟩, ⟨47, 32, .ro, false⟩, ⟨31, 30, .rsv, false⟩, ⟨29, 15, .ro, false⟩, ⟨14, 6, .rsv, false⟩, ⟨5, 0, .ro, false⟩]⟩,
  ⟨.link, oLnkDelay, 0x0, 1, 0x0, 1, 0x0,
    [⟨63, 32, .rsv, false⟩, ⟨31, 0, .ro, false⟩]⟩,
  ⟨.link, oLnkGuard, 0x0, 1, 0x0, 1, 0x47E,
    [⟨63, 16, .rsv, false⟩, ⟨15, 0, .rwh, false⟩]⟩,
  ⟨.link, oLnkQtz, 0x0, 1, 0x0, 1, 0x0,
    [⟨63, 32, .ro, false⟩, ⟨31, 16, .rsv, false⟩, ⟨15, 0, .ro, false⟩]⟩,
  ⟨.link, oLnkLanes, 0x0, 1, 0x0, 1, 0x0,
    [⟨63, 34, .rsv, false⟩, ⟨33, 0, .ro, false⟩]⟩,
  ⟨.link, oLnkRxmap, 0x8, 4, 0x0, 1, 0x0,
    [⟨63, 48, .rsv, false⟩, ⟨47, 0, .ro, false⟩]⟩,
  ⟨.link, oLnkCells, 0x0, 1, 0x0, 1, 0x0,
    [⟨63, 32, .ro, false⟩, ⟨31, 0, .ro, false⟩]⟩,
  ⟨.link, oLnkFec, 0x0, 1, 0x0, 1, 0x0,
    [⟨63, 32, .ro, false⟩, ⟨31, 0, .ro, false⟩]⟩,
  ⟨.link, oLnkReplay, 0x0, 1, 0x0, 1, 0x0,
    [⟨63, 32, .ro, false⟩, ⟨31, 0, .ro, false⟩]⟩,
  ⟨.link, oLnkUnderrun, 0x0, 1, 0x0, 1, 0x0,
    [⟨63, 32, .ro, false⟩, ⟨31, 0, .ro, false⟩]⟩,
  ⟨.link, oLnkDownInfo, 0x0, 1, 0x0, 1, 0x0,
    [⟨63, 63, .w1c, false⟩, ⟨62, 56, .ro, false⟩, ⟨55, 48, .rsv, false⟩, ⟨47, 0, .ro, false⟩]⟩,
  ⟨.link, oLnkEvents, 0x0, 1, 0x0, 1, 0x0,
    [⟨63, 48, .ro, false⟩, ⟨47, 32, .ro, false⟩, ⟨31, 16, .ro, false⟩, ⟨15, 0, .ro, false⟩]⟩,
  ⟨.link, oLnkChan, 0x8, 64, 0x0, 1, 0x7C0000000,
    [⟨63, 63, .rw, true⟩, ⟨62, 62, .rw, true⟩, ⟨61, 56, .rw, true⟩, ⟨55, 50, .rw, true⟩, ⟨49, 46, .rw, true⟩, ⟨45, 41, .rw, true⟩, ⟨40, 35, .rw, true⟩, ⟨34, 30, .rw, true⟩, ⟨29, 29, .rw, true⟩, ⟨28, 28, .rw, true⟩, ⟨27, 22, .rw, true⟩, ⟨21, 16, .rw, true⟩, ⟨15, 10, .rw, true⟩, ⟨9, 4, .rw, true⟩, ⟨3, 0, .rsv, false⟩]⟩,
  ⟨.link, oLnkPlan, 0x8, 7680, 0x0, 1, 0x0,
    [⟨63, 32, .rwh, false⟩, ⟨31, 0, .rwh, false⟩]⟩]

/-- Module registers of chapter 12. -/
def regsModule12 : List RegDesc := [
  ⟨.module, oLnkFrame, 0x0, 1, 0x0, 1, 0x0,
    [⟨63, 0, .ro, false⟩]⟩,
  ⟨.module, oLnkFrameBase, 0x0, 1, 0x0, 1, 0x0,
    [⟨63, 0, .rw, true⟩]⟩,
  ⟨.module, oLnkSlipCtl, 0x0, 1, 0x0, 1, 0x1000,
    [⟨63, 16, .rsv, false⟩, ⟨15, 8, .rw, true⟩, ⟨7, 3, .rsv, false⟩, ⟨2, 0, .rwh, false⟩]⟩,
  ⟨.module, oLnkSlipStatus, 0x0, 1, 0x0, 1, 0x0,
    [⟨63, 32, .ro, false⟩, ⟨31, 31, .w1c, false⟩, ⟨30, 19, .rsv, false⟩, ⟨18, 15, .ro, false⟩, ⟨14, 0, .ro, false⟩]⟩,
  ⟨.module, oLnkAltActive, 0x8, 2, 0x0, 1, 0x0,
    [⟨63, 0, .rwh, false⟩]⟩,
  ⟨.module, oLnkSpareSub, 0x0, 1, 0x0, 1, 0x0,
    [⟨63, 63, .rwh, false⟩, ⟨62, 54, .rsv, false⟩, ⟨53, 48, .rwh, false⟩, ⟨47, 47, .rwh, false⟩, ⟨46, 38, .rsv, false⟩, ⟨37, 32, .rwh, false⟩, ⟨31, 31, .rwh, false⟩, ⟨30, 22, .rsv, false⟩, ⟨21, 16, .rwh, false⟩, ⟨15, 15, .rwh, false⟩, ⟨14, 6, .rsv, false⟩, ⟨5, 0, .rwh, false⟩]⟩,
  ⟨.module, oLnkSelfId, 0x0, 1, 0x0, 1, 0x0,
    [⟨63, 0, .rw, true⟩]⟩,
  ⟨.module, oLnkSelfPos, 0x0, 1, 0x0, 1, 0x0,
    [⟨63, 48, .rsv, false⟩, ⟨47, 32, .rw, true⟩, ⟨31, 30, .rsv, false⟩, ⟨29, 15, .rw, true⟩, ⟨14, 0, .rw, true⟩]⟩,
  ⟨.module, oLnkQtzSrc, 0x0, 1, 0x0, 1, 0x0,
    [⟨63, 7, .rsv, false⟩, ⟨6, 6, .rw, false⟩, ⟨5, 0, .rw, false⟩]⟩]

/-- Module registers of chapter 13. -/
def regsModule13 : List RegDesc := [
  ⟨.module, oLnkStepCtl, 0x0, 1, 0x0, 1, 0x10000,
    [⟨63, 24, .rsv, false⟩, ⟨23, 16, .rw, true⟩, ⟨15, 8, .rsv, false⟩, ⟨7, 2, .rw, true⟩, ⟨1, 1, .rw, true⟩, ⟨0, 0, .rw, true⟩]⟩,
  ⟨.module, oLnkStepNext, 0x0, 1, 0x0, 1, 0x0,
    [⟨63, 0, .rw, true⟩]⟩,
  ⟨.module, oLnkStepPeriod, 0x0, 1, 0x0, 1, 0x12C000000000000,
    [⟨63, 48, .rw, true⟩, ⟨47, 40, .rsv, false⟩, ⟨39, 0, .rw, true⟩]⟩,
  ⟨.module, oLnkStepStatus, 0x0, 1, 0x0, 1, 0xFF00000000,
    [⟨63, 41, .rsv, false⟩, ⟨40, 40, .ro, false⟩, ⟨39, 32, .ro, false⟩, ⟨31, 24, .rsv, false⟩, ⟨23, 0, .rw, true⟩]⟩,
  ⟨.module, oLnkStepStats, 0x0, 1, 0x0, 1, 0x0,
    [⟨63, 48, .ro, false⟩, ⟨47, 32, .rsv, false⟩, ⟨31, 0, .ro, false⟩]⟩,
  ⟨.module, oLnkStepPeers, 0x0, 1, 0x0, 1, 0xFFFFFFFFFFFF,
    [⟨63, 48, .rsv, false⟩, ⟨47, 0, .ro, false⟩]⟩,
  ⟨.module, oLnkDomainShape, 0x0, 1, 0x0, 1, 0x0,
    [⟨63, 63, .rw, true⟩, ⟨62, 15, .rsv, false⟩, ⟨14, 10, .rw, true⟩, ⟨9, 5, .rw, true⟩, ⟨4, 0, .rw, true⟩]⟩,
  ⟨.module, oQtzTree, 0x0, 1, 0x0, 1, 0xFF,
    [⟨63, 63, .rw, false⟩, ⟨62, 8, .rsv, false⟩, ⟨7, 0, .ro, false⟩]⟩,
  ⟨.module, oQtz1588Ctl, 0x0, 1, 0x0, 1, 0x0,
    [⟨63, 20, .rsv, false⟩, ⟨19, 12, .rw, false⟩, ⟨11, 10, .rw, false⟩, ⟨9, 2, .rsv, false⟩, ⟨1, 0, .rw, false⟩]⟩,
  ⟨.module, oQtz1588Status, 0x0, 1, 0x0, 1, 0x0,
    [⟨63, 32, .ro, false⟩, ⟨31, 24, .rsv, false⟩, ⟨23, 16, .ro, false⟩, ⟨15, 4, .rsv, false⟩, ⟨3, 0, .ro, false⟩]⟩]

/-- Module registers of chapter 14. -/
def regsModule14 : List RegDesc := [
  ⟨.module, oModCkptCtl, 0x0, 1, 0x0, 1, 0xFF00,
    [⟨63, 16, .rsv, false⟩, ⟨15, 8, .rw, false⟩, ⟨7, 2, .rsv, false⟩, ⟨1, 1, .wo, false⟩, ⟨0, 0, .rw, false⟩]⟩,
  ⟨.module, oModCkptStatus, 0x0, 1, 0x0, 1, 0x0,
    [⟨63, 63, .ro, false⟩, ⟨62, 32, .rsv, false⟩, ⟨31, 0, .ro, false⟩]⟩,
  ⟨.module, oModCkptStep, 0x0, 1, 0x0, 1, 0x0,
    [⟨63, 0, .ro, false⟩]⟩,
  ⟨.module, oModStepSet, 0x0, 1, 0x0, 1, 0x0,
    [⟨63, 0, .wo, true⟩]⟩,
  ⟨.module, oModTwinCtl, 0x0, 1, 0x0, 1, 0x0,
    [⟨63, 58, .rsv, false⟩, ⟨57, 52, .rw, true⟩, ⟨51, 44, .rw, true⟩, ⟨43, 38, .rw, true⟩, ⟨37, 36, .rsv, false⟩, ⟨35, 20, .rw, true⟩, ⟨19, 16, .rsv, false⟩, ⟨15, 12, .rw, true⟩, ⟨11, 4, .rsv, false⟩, ⟨3, 2, .rw, true⟩, ⟨1, 1, .rsv, false⟩, ⟨0, 0, .rw, true⟩]⟩,
  ⟨.module, oModTwinFineStep, 0x0, 1, 0x0, 1, 0x0,
    [⟨63, 0, .rw, true⟩]⟩,
  ⟨.module, oModTwinStatus, 0x0, 1, 0x0, 1, 0x0,
    [⟨63, 63, .w1c, false⟩, ⟨62, 60, .ro, false⟩, ⟨59, 34, .rsv, false⟩, ⟨33, 33, .ro, false⟩, ⟨32, 32, .ro, false⟩, ⟨31, 0, .ro, false⟩]⟩,
  ⟨.module, oModTwinDivStep, 0x0, 1, 0x0, 1, 0x0,
    [⟨63, 0, .ro, false⟩]⟩,
  ⟨.module, oModTwinPartner, 0x0, 1, 0x0, 1, 0x0,
    [⟨63, 0, .rw, true⟩]⟩,
  ⟨.module, oModTwinFields, 0x0, 1, 0x0, 1, 0x0,
    [⟨63, 0, .ro, false⟩]⟩,
  ⟨.module, oModTwinLimits, 0x0, 1, 0x0, 1, 0x40000002710,
    [⟨63, 48, .rsv, false⟩, ⟨47, 32, .rw, true⟩, ⟨31, 16, .rsv, false⟩, ⟨15, 0, .rw, true⟩]⟩]

/-- Field registers of chapter 14. -/
def regsField14 : List RegDesc := [
  ⟨.field, oFldTwinStep, 0x20, 16, 0x0, 1, 0x0,
    [⟨63, 0, .ro, false⟩]⟩,
  ⟨.field, oFldTwinLo, 0x20, 16, 0x0, 1, 0x0,
    [⟨63, 0, .ro, false⟩]⟩,
  ⟨.field, oFldTwinHi, 0x20, 16, 0x0, 1, 0x0,
    [⟨63, 0, .ro, false⟩]⟩,
  ⟨.field, oFldTwinBuf, 0x0, 1, 0x0, 1, 0x0,
    [⟨63, 34, .rsv, false⟩, ⟨33, 0, .rw, true⟩]⟩]

/-- Field registers of chapter 15. -/
def regsField15 : List RegDesc := [
  ⟨.field, oSvcGwwin, 0x100, 6, 0x10, 16, 0x0,
    [⟨63, 44, .rsv, false⟩, ⟨43, 22, .rw, false⟩, ⟨21, 0, .rw, false⟩]⟩,
  ⟨.field, oSvcGwperm, 0x100, 6, 0x10, 16, 0x0,
    [⟨63, 63, .rw, false⟩, ⟨62, 62, .rw, false⟩, ⟨61, 61, .rw, false⟩, ⟨60, 40, .rsv, false⟩, ⟨39, 0, .rw, false⟩]⟩,
  ⟨.field, oSvcCorewin, 0x100, 6, 0x10, 16, 0x0,
    [⟨63, 38, .rsv, false⟩, ⟨37, 24, .rw, false⟩, ⟨23, 10, .rw, false⟩, ⟨9, 5, .rw, false⟩, ⟨4, 0, .rw, false⟩]⟩,
  ⟨.field, oSvcCoreperm, 0x100, 6, 0x10, 16, 0x0,
    [⟨63, 63, .rw, false⟩, ⟨62, 62, .rw, false⟩, ⟨61, 61, .rw, false⟩, ⟨60, 40, .rsv, false⟩, ⟨39, 0, .rw, false⟩]⟩,
  ⟨.field, oSvcGwdeny, 0x0, 1, 0x0, 1, 0x0,
    [⟨63, 63, .w1c, false⟩, ⟨62, 62, .ro, false⟩, ⟨61, 58, .ro, false⟩, ⟨57, 52, .ro, false⟩, ⟨51, 48, .rsv, false⟩, ⟨47, 0, .ro, false⟩]⟩,
  ⟨.field, oSvcCoredeny, 0x0, 1, 0x0, 1, 0x0,
    [⟨63, 63, .w1c, false⟩, ⟨62, 62, .ro, false⟩, ⟨61, 58, .ro, false⟩, ⟨57, 52, .ro, false⟩, ⟨51, 48, .rsv, false⟩, ⟨47, 0, .ro, false⟩]⟩,
  ⟨.field, oSvcGwdenyCount, 0x0, 1, 0x0, 1, 0x0,
    [⟨63, 0, .ro, false⟩]⟩,
  ⟨.field, oSvcCoredenyCount, 0x0, 1, 0x0, 1, 0x0,
    [⟨63, 0, .ro, false⟩]⟩]

/-- Module registers of chapter 15. -/
def regsModule15 : List RegDesc := [
  ⟨.module, oSvcRegwin, 0x100, 6, 0x10, 16, 0x0,
    [⟨63, 32, .rw, false⟩, ⟨31, 0, .rw, false⟩]⟩,
  ⟨.module, oSvcRegperm, 0x100, 6, 0x10, 16, 0x0,
    [⟨63, 63, .rw, false⟩, ⟨62, 62, .rw, false⟩, ⟨61, 61, .rw, false⟩, ⟨60, 40, .rsv, false⟩, ⟨39, 0, .rw, false⟩]⟩,
  ⟨.module, oSvcRegdeny, 0x0, 1, 0x0, 1, 0x0,
    [⟨63, 63, .w1c, false⟩, ⟨62, 62, .ro, false⟩, ⟨61, 58, .ro, false⟩, ⟨57, 52, .ro, false⟩, ⟨51, 48, .rsv, false⟩, ⟨47, 0, .ro, false⟩]⟩,
  ⟨.module, oSvcRegdenyCount, 0x0, 1, 0x0, 1, 0x0,
    [⟨63, 0, .ro, false⟩]⟩,
  ⟨.module, oSvcQg, 0x8, 32, 0x0, 1, 0x0,
    [⟨63, 63, .rw, false⟩, ⟨62, 8, .rsv, false⟩, ⟨7, 0, .rw, false⟩]⟩,
  ⟨.module, oSvcRdmaCtl, 0x0, 1, 0x0, 1, 0xE,
    [⟨63, 5, .rsv, false⟩, ⟨4, 0, .rw, false⟩]⟩,
  ⟨.module, oSvcRwinBase, 0x20, 256, 0x0, 1, 0x0,
    [⟨63, 48, .rsv, false⟩, ⟨47, 0, .rw, false⟩]⟩,
  ⟨.module, oSvcRwinSize, 0x20, 256, 0x0, 1, 0x0,
    [⟨63, 35, .rsv, false⟩, ⟨34, 0, .rw, false⟩]⟩,
  ⟨.module, oSvcRwinCtl, 0x20, 256, 0x0, 1, 0x0,
    [⟨63, 63, .rw, false⟩, ⟨62, 62, .rw, false⟩, ⟨61, 61, .rw, false⟩, ⟨60, 56, .rw, false⟩, ⟨55, 24, .rsv, false⟩, ⟨23, 0, .rw, false⟩]⟩,
  ⟨.module, oSvcMgmt, 0x0, 1, 0x0, 1, 0x0,
    [⟨63, 32, .rsv, false⟩, ⟨31, 16, .ro, false⟩, ⟨15, 0, .rw, false⟩]⟩,
  ⟨.module, oSvcMgmtPeer, 0x8, 16, 0x0, 1, 0x0,
    [⟨63, 63, .rw, false⟩, ⟨62, 32, .rsv, false⟩, ⟨31, 0, .rw, false⟩]⟩,
  ⟨.module, oHstIdent, 0x0, 1, 0x0, 1, 0x301,
    [⟨63, 16, .rsv, false⟩, ⟨15, 8, .ro, false⟩, ⟨7, 0, .ro, false⟩]⟩,
  ⟨.module, oHstCtl, 0x0, 1, 0x0, 1, 0x64,
    [⟨63, 16, .rsv, false⟩, ⟨15, 0, .rw, false⟩]⟩,
  ⟨.module, oHstMbCmd, 0x10, 4, 0x0, 1, 0x0,
    [⟨63, 7, .rsv, false⟩, ⟨6, 0, .rw, false⟩]⟩,
  ⟨.module, oHstMbRsp, 0x10, 4, 0x0, 1, 0x0,
    [⟨63, 63, .ro, false⟩, ⟨62, 32, .rsv, false⟩, ⟨31, 16, .ro, false⟩, ⟨15, 7, .rsv, false⟩, ⟨6, 0, .ro, false⟩]⟩,
  ⟨.module, oHstAper, 0x8, 4, 0x0, 1, 0x0,
    [⟨63, 18, .rsv, false⟩, ⟨17, 0, .rw, false⟩]⟩,
  ⟨.module, oHstAperStatus, 0x0, 1, 0x0, 1, 0x0,
    [⟨63, 32, .ro, false⟩, ⟨31, 0, .ro, false⟩]⟩,
  ⟨.module, oHstAperErr, 0x0, 1, 0x0, 1, 0x0,
    [⟨63, 63, .w1c, false⟩, ⟨62, 62, .ro, false⟩, ⟨61, 48, .ro, false⟩, ⟨47, 0, .ro, false⟩]⟩]

/-- Service registers of chapter 15. -/
def regsService15 : List RegDesc := [
  ⟨.service, oSvcEthCtl, 0x0, 1, 0x0, 1, 0x6C,
    [⟨63, 8, .rsv, false⟩, ⟨7, 5, .rw, false⟩, ⟨4, 4, .rw, false⟩, ⟨3, 3, .rw, false⟩, ⟨2, 2, .rw, false⟩, ⟨1, 1, .rsv, false⟩, ⟨0, 0, .rw, false⟩]⟩,
  ⟨.service, oSvcEthStatus, 0x0, 1, 0x0, 1, 0x0,
    [⟨63, 2, .rsv, false⟩, ⟨1, 1, .ro, false⟩, ⟨0, 0, .ro, false⟩]⟩,
  ⟨.service, oSvcEthMac, 0x0, 1, 0x0, 1, 0x0,
    [⟨63, 48, .rsv, false⟩, ⟨47, 0, .rw, false⟩]⟩,
  ⟨.service, oSvcEthFrames, 0x0, 1, 0x0, 1, 0x0,
    [⟨63, 32, .ro, false⟩, ⟨31, 0, .ro, false⟩]⟩,
  ⟨.service, oSvcEthFec, 0x0, 1, 0x0, 1, 0x0,
    [⟨63, 32, .ro, false⟩, ⟨31, 0, .ro, false⟩]⟩,
  ⟨.service, oSvcRdmaOps, 0x0, 1, 0x0, 1, 0x0,
    [⟨63, 32, .ro, false⟩, ⟨31, 0, .ro, false⟩]⟩,
  ⟨.service, oSvcRdmaNaks, 0x0, 1, 0x0, 1, 0x0,
    [⟨63, 48, .ro, false⟩, ⟨47, 32, .ro, false⟩, ⟨31, 16, .ro, false⟩, ⟨15, 0, .ro, false⟩]⟩]

/-- Module registers of chapter 16. -/
def regsModule16 : List RegDesc := [
  ⟨.module, oPwrCapCtl, 0x0, 1, 0x0, 1, 0x96000005DC0,
    [⟨63, 48, .rsv, false⟩, ⟨47, 32, .rw, false⟩, ⟨31, 15, .rsv, false⟩, ⟨14, 0, .rw, false⟩]⟩,
  ⟨.module, oPwrShapeCtl, 0x0, 1, 0x0, 1, 0x7D0003C00000014,
    [⟨63, 48, .rwh, false⟩, ⟨47, 40, .rsv, false⟩, ⟨39, 32, .rwh, false⟩, ⟨31, 16, .rsv, false⟩, ⟨15, 0, .rwh, false⟩]⟩,
  ⟨.module, oPwrStatus, 0x0, 1, 0x0, 1, 0x0,
    [⟨63, 48, .ro, false⟩, ⟨47, 32, .ro, false⟩, ⟨31, 12, .rsv, false⟩, ⟨11, 8, .ro, false⟩, ⟨7, 3, .rsv, false⟩, ⟨2, 0, .ro, false⟩]⟩,
  ⟨.module, oPwrInput, 0x0, 1, 0x0, 1, 0x0,
    [⟨63, 48, .ro, false⟩, ⟨47, 32, .ro, false⟩, ⟨31, 16, .ro, false⟩, ⟨15, 0, .rsv, false⟩]⟩,
  ⟨.module, oPwrEnergyIn, 0x0, 1, 0x0, 1, 0x0,
    [⟨63, 0, .ro, false⟩]⟩,
  ⟨.module, oPwrHoldup, 0x0, 1, 0x0, 1, 0x0,
    [⟨63, 48, .ro, false⟩, ⟨47, 32, .ro, false⟩, ⟨31, 16, .ro, false⟩, ⟨15, 0, .ro, false⟩]⟩,
  ⟨.module, oPwrHoldupCal, 0x0, 1, 0x0, 1, 0x0,
    [⟨63, 32, .rsv, false⟩, ⟨31, 16, .ro, false⟩, ⟨15, 0, .ro, false⟩]⟩,
  ⟨.module, oPwrBraceCtl, 0x0, 1, 0x0, 1, 0x96,
    [⟨63, 8, .rsv, false⟩, ⟨7, 0, .rw, false⟩]⟩,
  ⟨.module, oPwrBraceStatus, 0x0, 1, 0x0, 1, 0x0,
    [⟨63, 48, .ro, false⟩, ⟨47, 32, .ro, false⟩, ⟨31, 16, .rsv, false⟩, ⟨15, 0, .ro, false⟩]⟩,
  ⟨.module, oPwrThermCtl, 0x0, 1, 0x0, 1, 0x17700000695F,
    [⟨63, 48, .rsv, false⟩, ⟨47, 32, .rw, false⟩, ⟨31, 16, .rsv, false⟩, ⟨15, 8, .rw, false⟩, ⟨7, 0, .rw, false⟩]⟩,
  ⟨.module, oPwrThermStatus, 0x0, 1, 0x0, 1, 0x0,
    [⟨63, 48, .ro, false⟩, ⟨47, 46, .rsv, false⟩, ⟨45, 40, .ro, false⟩, ⟨39, 2, .rsv, false⟩, ⟨1, 1, .w1c, false⟩, ⟨0, 0, .ro, false⟩]⟩,
  ⟨.module, oPwrEvents, 0x0, 1, 0x0, 1, 0x0,
    [⟨63, 48, .ro, false⟩, ⟨47, 32, .ro, false⟩, ⟨31, 16, .ro, false⟩, ⟨15, 0, .ro, false⟩]⟩,
  ⟨.module, oPwrGovReq, 0x0, 1, 0x0, 1, 0x0,
    [⟨63, 1, .rsv, false⟩, ⟨0, 0, .wo, false⟩]⟩,
  ⟨.module, oPwrShutdown, 0x0, 1, 0x0, 1, 0x0,
    [⟨63, 63, .w1c, false⟩, ⟨62, 4, .rsv, false⟩, ⟨3, 0, .ro, false⟩]⟩,
  ⟨.module, oPwrElog, 0x0, 1, 0x0, 1, 0x0,
    [⟨63, 48, .ro, false⟩, ⟨47, 0, .ro, false⟩]⟩]

/-- Field registers of chapter 16. -/
def regsField16 : List RegDesc := [
  ⟨.field, oFldPwrStatus, 0x0, 1, 0x0, 1, 0x0,
    [⟨63, 48, .ro, false⟩, ⟨47, 3, .rsv, false⟩, ⟨2, 0, .ro, false⟩]⟩,
  ⟨.field, oFldEnergy, 0x0, 1, 0x0, 1, 0x0,
    [⟨63, 0, .ro, false⟩]⟩,
  ⟨.field, oFldEnergyTask, 0x8, 4, 0x0, 1, 0x0,
    [⟨63, 0, .ro, false⟩]⟩,
  ⟨.field, oFldEnergyShared, 0x0, 1, 0x0, 1, 0x0,
    [⟨63, 0, .ro, false⟩]⟩,
  ⟨.field, oFldEnergyStep, 0x0, 1, 0x0, 1, 0x0,
    [⟨63, 0, .ro, false⟩]⟩,
  ⟨.field, oFldDroopCtl, 0x0, 1, 0x0, 1, 0x1E,
    [⟨63, 8, .rsv, false⟩, ⟨7, 0, .rwh, false⟩]⟩,
  ⟨.field, oFldActCoef, 0x8, 64, 0x0, 1, 0x0,
    [⟨63, 16, .rsv, false⟩, ⟨15, 0, .ro, false⟩]⟩,
  ⟨.field, oFldActCount, 0x8, 64, 0x0, 1, 0x0,
    [⟨63, 0, .ro, false⟩]⟩]

/-- Module registers of chapter 17. -/
def regsModule17 : List RegDesc := [
  ⟨.module, oCarBootStatus, 0x0, 1, 0x0, 1, 0x0,
    [⟨63, 48, .ro, false⟩, ⟨47, 10, .rsv, false⟩, ⟨9, 9, .ro, false⟩, ⟨8, 8, .ro, false⟩, ⟨7, 3, .rsv, false⟩, ⟨2, 0, .ro, false⟩]⟩,
  ⟨.module, oCarImageInfo, 0x0, 1, 0x0, 1, 0x0,
    [⟨63, 32, .ro, false⟩, ⟨31, 0, .ro, false⟩]⟩,
  ⟨.module, oCarResetInfo, 0x0, 1, 0x0, 1, 0x0,
    [⟨63, 32, .ro, false⟩, ⟨31, 8, .rsv, false⟩, ⟨7, 0, .ro, false⟩]⟩,
  ⟨.module, oCarCoreReset, 0x0, 1, 0x0, 1, 0x0,
    [⟨63, 2, .rsv, false⟩, ⟨1, 1, .ro, false⟩, ⟨0, 0, .wo, false⟩]⟩,
  ⟨.module, oCarWdogCtl, 0x10, 5, 0x0, 1, 0x64,
    [⟨63, 63, .rw, false⟩, ⟨62, 48, .rsv, false⟩, ⟨47, 32, .ro, false⟩, ⟨31, 16, .rsv, false⟩, ⟨15, 0, .rw, false⟩]⟩,
  ⟨.module, oCarWdogKick, 0x10, 5, 0x0, 1, 0x0,
    [⟨63, 1, .rsv, false⟩, ⟨0, 0, .wo, false⟩]⟩,
  ⟨.module, oCarUpdateStatus, 0x0, 1, 0x0, 1, 0x0,
    [⟨63, 48, .ro, false⟩, ⟨47, 32, .ro, false⟩, ⟨31, 16, .ro, false⟩, ⟨15, 3, .rsv, false⟩, ⟨2, 0, .ro, false⟩]⟩,
  ⟨.module, oHstBootStatus, 0x0, 1, 0x0, 1, 0x0,
    [⟨63, 48, .ro, false⟩, ⟨47, 3, .rsv, false⟩, ⟨2, 0, .ro, false⟩]⟩,
  ⟨.module, oHstResetCtl, 0x0, 1, 0x0, 1, 0x0,
    [⟨63, 16, .rsv, false⟩, ⟨15, 0, .wo, false⟩]⟩]

/-- Module registers of chapter 18. -/
def regsModule18 : List RegDesc := [
  ⟨.module, oModFaultStatus, 0x0, 1, 0x0, 1, 0x0,
    [⟨63, 63, .w1c, false⟩, ⟨62, 48, .rsv, false⟩, ⟨47, 32, .ro, false⟩, ⟨31, 0, .ro, false⟩]⟩,
  ⟨.module, oModFaultSeq, 0x0, 1, 0x0, 1, 0x0,
    [⟨63, 32, .ro, false⟩, ⟨31, 0, .ro, false⟩]⟩,
  ⟨.module, oModFaultLog, 0x0, 1, 0x0, 1, 0x0,
    [⟨63, 48, .rsv, false⟩, ⟨47, 0, .ro, false⟩]⟩,
  ⟨.module, oModFaultLost, 0x0, 1, 0x0, 1, 0x0,
    [⟨63, 32, .ro, false⟩, ⟨31, 0, .ro, false⟩]⟩,
  ⟨.module, oModJtagIdcode, 0x0, 1, 0x0, 1, 0x0,
    [⟨63, 32, .rsv, false⟩, ⟨31, 0, .ro, false⟩]⟩]

/-- Field registers of chapter 18. -/
def regsField18 : List RegDesc := [
  ⟨.field, oFldFaultStatus, 0x0, 1, 0x0, 1, 0x0,
    [⟨63, 32, .ro, false⟩, ⟨31, 8, .ro, false⟩, ⟨7, 7, .rsv, false⟩, ⟨6, 0, .ro, false⟩]⟩,
  ⟨.field, oFldTraceCtl, 0x0, 1, 0x0, 1, 0x4000000000000000,
    [⟨63, 63, .rw, false⟩, ⟨62, 62, .rw, false⟩, ⟨61, 16, .rsv, false⟩, ⟨15, 0, .rw, false⟩]⟩,
  ⟨.field, oFldTraceFilter, 0x0, 1, 0x0, 1, 0x3FFF000000000,
    [⟨63, 50, .rw, false⟩, ⟨49, 36, .rw, false⟩, ⟨35, 0, .rsv, false⟩]⟩,
  ⟨.field, oFldTraceTag, 0x0, 1, 0x0, 1, 0x0,
    [⟨63, 52, .rsv, false⟩, ⟨51, 32, .rw, false⟩, ⟨31, 20, .rsv, false⟩, ⟨19, 0, .rw, false⟩]⟩,
  ⟨.field, oFldTraceBuf, 0x0, 1, 0x0, 1, 0x0,
    [⟨63, 48, .rw, true⟩, ⟨47, 34, .rsv, false⟩, ⟨33, 0, .rw, true⟩]⟩,
  ⟨.field, oFldTraceStatus, 0x0, 1, 0x0, 1, 0x0,
    [⟨63, 63, .ro, false⟩, ⟨62, 62, .ro, false⟩, ⟨61, 48, .rsv, false⟩, ⟨47, 32, .ro, false⟩, ⟨31, 0, .ro, false⟩]⟩]

/-- All core registers. -/
def coreRegs : List RegDesc := regsCore02 ++ regsCore03 ++ regsCore04 ++ regsCore05 ++ regsCore06 ++ regsCore08 ++ regsCore09 ++ regsCore10

/-- All cluster registers. -/
def clusterRegs : List RegDesc := regsCluster07 ++ regsCluster08 ++ regsCluster10

/-- All field registers. -/
def fieldRegs : List RegDesc := regsField01 ++ regsField08 ++ regsField09 ++ regsField10 ++ regsField11 ++ regsField14 ++ regsField15 ++ regsField16 ++ regsField18

/-- All module registers. -/
def moduleRegs : List RegDesc := regsModule01 ++ regsModule04 ++ regsModule08 ++ regsModule11 ++ regsModule12 ++ regsModule13 ++ regsModule14 ++ regsModule15 ++ regsModule16 ++ regsModule17 ++ regsModule18

/-- All link registers. -/
def linkRegs : List RegDesc := regsLink12

/-- All service registers. -/
def serviceRegs : List RegDesc := regsService15

/-- Is the offset one that the row covers? -/
def regHit (d : RegDesc) (off : Nat) : Bool :=
  if off < d.off then false
  else
    let x := off - d.off
    if d.n1 ≤ 1 then x == 0
    else if d.n2 ≤ 1 then x % d.s1 == 0 && decide (x / d.s1 < d.n1)
    else if d.s1 ≥ d.s2 then decide (x / d.s1 < d.n1) && x % d.s1 % d.s2 == 0 && decide (x % d.s1 / d.s2 < d.n2)
    else decide (x / d.s2 < d.n2) && x % d.s2 % d.s1 == 0 && decide (x % d.s2 / d.s1 < d.n1)

/-- The rows of a block. -/
def blkRegs : Blk → List RegDesc
  | .core => coreRegs | .cluster => clusterRegs | .field => fieldRegs | .module => moduleRegs
  | .link => linkRegs | .service => serviceRegs

/-- The row that covers an offset of a block. -/
def findReg (b : Blk) (off : Nat) : Option RegDesc := (blkRegs b).find? fun d => regHit d off

end Sys2Proof.Machine
end

