-- ==== Sys2Proof/Machine/SMap.lean ====
section
/-! DEFINITION. Machine/SMap.lean: reading and writing sparse tables. A table lists, keys strictly rising, only the
entries that differ from the default of their key. -/
namespace Sys2Proof.Machine

/-- The value at a key, `d` where it is not listed. -/
def smGet (d : α) (k : Nat) : SMap α → α
  | [] => d
  | (j, v) :: m => if j = k then v else smGet d k m

/-- The value at a key, where it is listed. -/
def smFind (k : Nat) : SMap α → Option α
  | [] => none
  | (j, v) :: m => if j = k then some v else smFind k m

/-- The table without a key. -/
def smErase (k : Nat) : SMap α → SMap α
  | [] => []
  | (j, v) :: m => if j = k then smErase k m else (j, v) :: smErase k m

/-- Inserts a key in its place. -/
def smInsert (k : Nat) (v : α) : SMap α → SMap α
  | [] => [(k, v)]
  | (j, w) :: m => if k < j then (k, v) :: (j, w) :: m else (j, w) :: smInsert k v m

/-- Writes a key; writing its default removes it. -/
def smPut [DecidableEq α] (d : α) (k : Nat) (v : α) (m : SMap α) : SMap α :=
  if v = d then smErase k m else smInsert k v (smErase k m)

/-- The keys listed. -/
def smKeys (m : SMap α) : List Nat := m.map (·.1)

/-- The canonical form: keys strictly rising, no entry equal to the default `d` of its key. -/
def smWf [DecidableEq α] (d : Nat → α) : SMap α → Bool
  | [] => true
  | [(k, v)] => decide (v ≠ d k)
  | (k, v) :: (j, w) :: m => decide (v ≠ d k) && decide (k < j) && smWf d ((j, w) :: m)

/-- Replaces entry `i` of a list. -/
def listSet (l : List α) (i : Nat) (v : α) : List α := l.set i v

end Sys2Proof.Machine
end

