-- ==== Sys2Proof/Machine/State.lean ====
section
/-! DEFINITION. Machine/State.lean: everything the spec gives the module, as plain data, and the state after a module
reset. Registers that software reads and writes keep their home in `regs`; the typed fields hold what no register holds.
Sparse tables list only what differs from its reset value. -/
namespace Sys2Proof.Machine
open Sys2Proof

/-- Why the model stops. No command of the table stops it: a core fault, a steward fault and a forced stop are states
of the device. -/
inductive Fault where
  /-- An operand names something the table's row cannot name (the term is ill-formed, `WellFormed`); raised by the
  meanings that check their operands' lengths. Safe: such a command never reaches the hardware. -/
  | illFormed
  deriving DecidableEq, Repr

/-- Why a command has no meaning here. -/
inductive Refusal where
  /-- The command has no meaning in the model yet; raised by its arm of `exec`. Safe. -/
  | notModelled (mnemonic : String)
  deriving DecidableEq, Repr

/-! ## Cores: sequencer, fetch engine, stores (chapters 2 to 6, 9, 10) -/

/-- Core states of R66. HUSH and FENCED are shown over the state kept here (`effMode`). -/
inductive CoreMode where
  | reset | run | drain | held | stopped | faulted
  deriving DecidableEq, Repr

/-- What a scoreboard range counts: absolute tile-store rows, accumulator blocks, vector-tile positions (R75, R205). -/
inductive Space where
  | tile | acc | vec
  deriving DecidableEq, Repr

/-- A range lo to hi, both included (R75). -/
structure Range where
  space : Space
  lo : Nat
  hi : Nat
  deriving DecidableEq, Repr

/-- An operand that a command takes in the cycle of its read (R78, R89, R90, R157): a row, a byte column or an element
column of width 2 of the tile store, each by its absolute first row; a vector tile; an accumulator block; the weight latch
and scale buffer as step `step` finds them when it reaches the arrays, after a copy of the shadow with `swap`. -/
inductive Taken
  | row (r : Nat)
  | col (r col : Nat)
  | half (r col : Nat)
  | vec (n : Nat)
  | acc (n : Nat)
  | latch (swap : Bool) (step : Nat)
  deriving DecidableEq, Repr

/-- A command from its issue to its completion (R49, R50, R76). -/
structure Cmd where
  /-- its engine -/
  eng : EngineId
  /-- the slot's bits: 48 for matrix, 56 otherwise (R38) -/
  slot : Nat
  /-- the word's tag -/
  tag : BitVec 20
  /-- CORE_STEP at issue (R133, R251) -/
  step : W64
  /-- counter and increment of its completion signal (R41) -/
  sig : Option (Nat × Nat)
  /-- task running at issue, and its tile-store base in rows (R104) -/
  task : Nat
  tbase : Nat
  /-- draw counter base of a drawing command (R134) -/
  rc : W32
  /-- stacked-memory address of an MPUT, taken from its descriptor at issue (R45) -/
  addr : Nat
  /-- cycle of issue -/
  issued : Nat
  /-- ranges written, pending to the end of the completion cycle (R76) -/
  writes : List Range
  /-- cycle in which it began, once begun (R50) -/
  begun : Option Nat
  /-- cycle of its last input beat (R50) -/
  lastIn : Nat
  /-- cycle of completion (R54) -/
  due : Nat
  /-- its effect event has happened -/
  done : Bool
  /-- granules whose acknowledgment or read data is outstanding (R80) -/
  acks : Nat
  /-- rows of an MSEND that have entered the send buffer (R282) -/
  rows : Nat := 0
  /-- its issue index: words its core had issued in the step (R450) -/
  idx : Nat := 0
  /-- operands still to be taken, with the cycles of their reads; those taken, as bytes, with those cycles -/
  wants : List (Nat × Taken) := []
  got : List (Taken × List Byte × Nat) := []
  /-- cycles in which its results are written, in order, and how many of these writes have been made (R78 to R80, R142,
  R167 to R170, R203, R204); of an MSCATTER the granules sent -/
  outs : List Nat := []
  outN : Nat := 0
  /-- granules of an MSCATTER still to leave: cycle and address (R319) -/
  sends : List (Nat × Nat) := []
  /-- MOD_RNG_SEED at issue, for a drawing command (R149) -/
  seed : W64 := 0#64
  deriving DecidableEq, Repr

/-- What an access or a request is answered with (R313, R322, R460, R461, R465, R468, R474). -/
inductive Status where
  | ok | poisoned | accessDenied | targetFenced | busy | configRejected | storeLocked
  | nakInvalid | nakAccess | nakOperational | rnrNak | completerAbort | dropped | nack
  deriving DecidableEq, Repr

/-- One fill of a ring slot, oldest first in ring order (R70, R72, R74, R253). -/
structure Fill where
  /-- ring slot it goes to -/
  slot : Nat
  /-- tag of the fetch-side word -/
  tag : BitVec 20
  /-- cycle in which the fetch engine executed it -/
  at_ : Nat
  /-- rows not yet accepted by the combiner -/
  rowsLeft : Nat
  /-- absolute rows of the slot -/
  lo : Nat
  hi : Nat
  /-- issued past a hinted decision point and not confirmed (R74) -/
  provisional : Bool
  /-- how many sb words the fetch engine had passed without their realign: its increment waits for as many (R253) -/
  deferred : Nat
  /-- its fill-counter increment has been applied (R72) -/
  counted : Bool
  /-- cancelled: it lands and is discarded (R51, R74) -/
  cancelled : Bool
  deriving DecidableEq, Repr

/-- One resident task (R64, R70, R71): what is kept while another task runs. -/
structure TaskSt where
  /-- word pointer, task-relative -/
  pc : Nat
  /-- loop counters 0 to 3 (R57) -/
  loops : List W32
  /-- fetch pointer (R71) -/
  fpc : Nat
  /-- the fetch engine's copy of the loop counters -/
  floops : List W32
  /-- fetch-side commands since the ring was enabled: the next one uses slot nextSlot mod size (R70) -/
  nextSlot : Nat
  /-- ring slots not free, oldest first -/
  fills : List Fill
  deriving DecidableEq, Repr

/-- What a cancellation of provisional run-ahead goes back to (R74): fetch pointer, loop counters, next slot and the
fetch-side descriptors. -/
structure FetchSnap where
  hint : Nat
  fpc : Nat
  floops : List W32
  nextSlot : Nat
  adrs : List W64
  past : Int
  deriving DecidableEq, Repr

/-- A block standing in a conveyor register (R171, R172). -/
structure ConvBlk where
  data : BitVec 256
  scale : Byte
  kind : Nat
  seq : Nat
  /-- hops it still makes -/
  left : Nat
  deriving DecidableEq, Repr

/-- One write-combiner entry (R98). -/
structure CombEntry where
  row : Nat
  /-- 32 data bytes; none where not valid -/
  bytes : List (Option Byte)
  /-- cycle of the last write accepted -/
  last : Nat
  /-- forced ready by a write that found all entries open (R99), and that write's class and row while it waits -/
  forced : Bool
  owner : Option (Nat × Nat) := none
  deriving DecidableEq, Repr

/-- A source of background writes that wait, in the order of R99. Mesh arrivals wait in their queues and combined rows in
`combs`: those come between fills and stewards. -/
inductive BgSrc where
  /-- a fill, by the cycle of its execution -/
  | fill (born : Nat)
  /-- a TSST, by its number at its steward -/
  | steward (seq : Nat)
  | master
  deriving DecidableEq, Repr

/-- A background write that waits at its source for the combiner (R93, R99). -/
structure BgWrite where
  src : BgSrc
  row : Nat
  bytes : List (Option Byte)
  deriving DecidableEq, Repr

/-- Sources of background reads that wait, in the order of R94. Combining reads come before them and are made as their row
leaves its queue. -/
inductive BgRd where
  | index (task : Nat) (row : Nat)
  | rpull (dir : Nat) (puller : Nat) (born : Nat) (row : Nat)
  | steward (byte : Nat)
  /-- first byte and bytes wanted -/
  | master (byte len : Nat)
  /-- row i of a prefetched cell of a link (R384) -/
  | egress (link cell i : Nat)
  deriving DecidableEq, Repr

/-- A background read that waits for its side's read port (R94). -/
structure BgRead where
  src : BgRd
  row : Nat
  deriving DecidableEq, Repr

/-- A scheduled access: the cycle, side and direction it falls in (R92), its engine, its row and its tag. -/
structure SchedAcc where
  cy : Nat
  odd : Bool
  write : Bool
  eng : EngineId
  row : Nat
  tag : BitVec 20
  /-- it lost a bank conflict (R96), and the conflict has been raised -/
  lost : Bool
  told : Bool
  deriving DecidableEq, Repr

/-! ## Mesh (chapter 9) -/

/-- A beat: its sideband (R281), its data, and what its credit needs (R284). -/
structure MBeat where
  first : Bool
  last : Bool
  gen : Nat
  dstChan : Nat
  dst : Nat
  src : Nat
  tag : BitVec 20
  data : List Byte
  /-- the check bits hold -/
  ok : Bool
  /-- channel at the sender; hop latency of the links passed so far -/
  sendChan : Nat
  hops : Nat
  deriving DecidableEq, Repr

/-- A row of the send buffer (R282), with the cycle of issue of its MSEND. -/
structure SendRow where
  beat : MBeat
  issued : Nat
  enters : Nat
  deriving DecidableEq, Repr

/-- A beat at a router input (0 north, 1 east, 2 south, 3 west), and its cycle (R279). -/
structure InBeat where
  dir : Nat
  cy : Nat
  beat : MBeat
  deriving DecidableEq, Repr

/-- A row in an arrival queue (R287), with the cycle in which it entered. -/
structure AqRow where
  beat : MBeat
  entered : Nat
  deriving DecidableEq, Repr

/-- A message held by a lane (R288 to R290). -/
structure Lane where
  dir : Nat
  chan : Nat
  /-- rows that have left the queue -/
  rows : Nat
  /-- first cycle in which the next row may leave -/
  next : Nat
  /-- the message is being discarded -/
  drop : Bool
  /-- first message of a round, or a plain message: its rows land as they are -/
  plain : Bool
  /-- destination rows read, message rows, of an unfinished exact run (R296) -/
  run : List (List Byte × List Byte)
  deriving DecidableEq, Repr

/-- A combined row that lands in its cycle (R296). -/
structure CombRow where
  chan : Nat
  row : Nat
  data : List Byte
  at_ : Nat
  last : Bool
  tag : BitVec 20
  src : Nat
  deriving DecidableEq, Repr

/-- A credit on its way back: channel, cycle from which it is usable, notice of a cut port (R284, R304). -/
structure Credit where
  chan : Nat
  at_ : Nat
  cut : Bool
  deriving DecidableEq, Repr

/-- What is kept of a core besides its registers and stores. -/
structure CoreSt where
  /-- state (R66) -/
  mode : CoreMode := .reset
  /-- entry at which a start write has armed it (R69) -/
  armed : Option Nat := none
  /-- running task (R64) -/
  task : Nat := 0
  /-- the four tasks -/
  tasks : List TaskSt := List.replicate 4 ⟨0, [0, 0, 0, 0], 0, [0, 0, 0, 0], 0, []⟩
  /-- END has issued (R58) -/
  ended : Bool := false
  /-- an issued hush point holds the sequencer (R39) -/
  hpHold : Bool := false
  /-- the word of the standing arrival carried hp (R352) -/
  hpWord : Bool := false
  /-- an issued step boundary holds the sequencer until its realign (R251) -/
  sbHold : Bool := false
  /-- the realign arrival of that boundary has been raised -/
  sbArrived : Bool := false
  /-- cycle of the first evaluation of the unmet wait that holds the sequencer (R55) -/
  waitSince : Option Nat := none
  /-- DEADLINE_MISS raised for this wait (R56) -/
  missed : Bool := false
  /-- cycle in which a word was last considered (R47) -/
  considered : Option Nat := none
  /-- tag of the last word considered -/
  lastTag : BitVec 20 := 0#20
  /-- the decision point's word, while in DRAIN or HELD: its tag, whether its overlay has landed -/
  dpTag : BitVec 20 := 0#20
  ovlWait : Bool := false
  /-- overlay reads that still wait for a memory-queue entry: address, bytes, first absolute word, bytes before it in the
  read, words; how many are under way (R63, R312) -/
  ovlLeft : List (Nat × Nat × Nat × Nat × Nat) := []
  ovlOut : Nat := 0
  /-- a redirect on its way: entry, first cycle in which it reaches the core (R61, R236) -/
  redirect : Option (Nat × Nat) := none
  /-- commands issued and not completed, in order of issue (R49, R76) -/
  cmds : List Cmd := []
  /-- write ranges of commands and fills that completed in this cycle, still pending to its end (R76): when each became
  pending, its tag, its ranges -/
  lateW : List (Nat × BitVec 20 × List Range) := []
  /-- the last RPOP that completed: its cycle, its task, the slots it freed, which are refilled from the next cycle on; it
  holds its queue entry to the end of that cycle (R49, R72) -/
  popped : Option (Nat × Nat × Nat) := none
  /-- first cycle in which each engine may begin another command (R50) -/
  freeM : Nat := 0
  freeV : Nat := 0
  freeX : Nat := 0
  freeS : Nat := 0
  /-- counter updates of this cycle, not yet visible (R53): counter, amount added -/
  ctrAdd : List (Nat × Int) := []
  /-- net change of each counter since the last realign (R250) -/
  net : List Int := List.replicate 32 0
  /-- the realign updates of the counters are made at the end of this cycle (R254) -/
  real : Bool := false
  /-- fetch engine: stop cause (R71), cycle of its last advance, run-ahead past a hinted decision point (R74) -/
  fetchCause : Nat := 0
  fetched : Option Nat := none
  snap : Option FetchSnap := none
  /-- sb words the fetch engine has passed less the realigns that have come: negative while the engine lags (R253) -/
  fetchPast : Int := 0
  /-- the fetch-side command of the word at the fetch pointer has been performed, and the engine holds there -/
  fetchDone : Bool := false
  /-- the fetch engine has been stopped by a fault (R51) -/
  fetchDead : Bool := false
  /-- transactions outstanding, the entries of the memory queue (R312) -/
  outst : Nat := 0
  /-- the RGATHER at the fetch pointer has asked for its index rows; those read so far (R317, R318) -/
  idxReq : Bool := false
  idxGot : List (Nat × List Byte) := []
  /-- write combiner entries, oldest first (R98); cycle of the last acceptance, how many it has had (R99) -/
  comb : List CombEntry := []
  combCy : Option Nat := none
  combN : Nat := 0
  /-- writes for which a freed entry is kept, by class and row (R99) -/
  combKept : List (Nat × Nat) := []
  /-- rows written in a cycle, as they stood before: cycle, row, bytes (R90, R101) -/
  seen : List (Nat × Nat × List Byte) := []
  /-- background writes and reads waiting (R93) -/
  bgw : List BgWrite := []
  bgr : List BgRead := []
  /-- scheduled accesses of begun commands (R92) -/
  sched : List SchedAcc := []
  /-- schedule idle count, next ramp slot (32 when none), slots still to be consumed (cycle, slot after it) and step cycles
  still to come (R178, R179) -/
  idle : Nat := 0xFFFF
  ramp : Nat := 32
  rampPlan : List (Nat × Nat) := []
  stepCys : List Nat := []
  /-- ghost density when the held cycles began, and held cycles since (R181) -/
  heldRun : Nat := 0
  heldDens : Nat := 0
  /-- conveyor register, and the block this core places when its shadow loads (R171, R172) -/
  conv : Option ConvBlk := none
  convOut : Option (Nat × ConvBlk) := none
  /-- cycle of the arrival at the steward, while it stands; tags of the last decision point and of the one before (R231) -/
  arrAt : Option Nat := none
  arrTag : BitVec 20 := 0#20
  prevTag : BitVec 20 := 0#20
  /-- cycle in which the realign arrival was raised (R255) -/
  realArr : Option Nat := none
  /-- cycle of the last background read of side E, side O (R93) -/
  bgE : Option Nat := none
  bgO : Option Nat := none
  /-- cycle of the last combiner flush of side E, side O (R100) -/
  flE : Option Nat := none
  flO : Option Nat := none
  /-- send buffer (R282), router inputs, arrival queues north to west (R287), lanes, combined rows on their way, credits -/
  sendBuf : List SendRow := []
  inb : List InBeat := []
  aq : List (List AqRow) := [[], [], [], []]
  lanes : List (Option Lane) := [none, none]
  combs : List CombRow := []
  /-- first cycle in which each lane is free, the channel of its last message, held until then (R288); cycle of the last
  departure -/
  laneFree : List Nat := [0, 0]
  laneLast : List Nat := [64, 64]
  sentAt : Option Nat := none
  credIn : List Credit := []
  /-- summary words computed and not landed: slot, word (R214) -/
  summ : List (Nat × W64) := []
  /-- words issued since the step began (R450) -/
  issIdx : Nat := 0
  deriving DecidableEq, Repr

/-! ## Fault records and the gateway (chapters 10, 18) -/

/-- The fault names of the manual (R535). -/
inductive FaultName where
  | illegalCommand | boundViolation | rangeHazard | queueOverrun | bankConflict | conveyorMiss
  | waitTimeout | deadlock | countDrift | barrierEarly | deadlineMiss | garnetRail | meshError | staleMessage
  | eccUncorrected | decisionEarly | linkLost | slipMissed | stepLate | slackExhausted | clockHoldover | railTimeout
  | powerBrace | thermalLimit | watchdogExpired | faultPath | storeLocked | configRejected | accessDenied | targetFenced
  | foreignFree | doubleFree | twinDivergence | fenceApplied
  deriving DecidableEq, Repr

/-- A fault record (R538). -/
structure FaultRec where
  name : FaultName
  /-- 0 core; 1 steward; 2 field; 3 gateway; 4 link; 5 module; 6 Carnelian core; 7 service or host target -/
  unit : Nat
  fatal : Bool
  fence : Bool
  cont : Bool
  lost : Bool
  secondary : Bool
  loc : Nat
  tag : BitVec 20
  time : W64
  step : W64
  detail : Nat
  /-- what R541 calls its source, where it counts repeats -/
  source : Nat
  deriving DecidableEq, Repr

/-- Where a transaction stands on its path (R312). -/
inductive TxnStage where
  | core | port | input | tracker | answered
  deriving DecidableEq, Repr

/-- What a transaction's answer goes to. -/
inductive TxnDest where
  /-- a fill, by its task and the cycle in which the fetch engine executed it, and the first absolute row landed (R70) -/
  | fill (task born row : Nat)
  /-- a part of an overlay: first absolute instruction-store word, bytes of the read before it, words (R63) -/
  | overlay (word skip n : Nat)
  /-- an MPUT or MSCATTER, by its cycle of issue (R80) -/
  | put (issued : Nat)
  /-- a master outside the cores -/
  | master (m : Master)
  /-- an RDMA packet of a queue group, and its service link (40 to 47), plus 64 where more packets of its request follow -/
  | rdma (g : Fin 32) (link : Nat)
  deriving DecidableEq, Repr

/-- A transaction of the gateway (R312 to R315). -/
structure Txn where
  id : Nat
  /-- service class of R324 -/
  cls : Nat
  /-- the core, for compiled transactions -/
  core : Nat
  write : Bool
  /-- first byte (module address) and bytes -/
  addr : Nat
  len : Nat
  tag : BitVec 20
  dest : TxnDest
  stage : TxnStage
  /-- granules not yet served, as offsets in the transaction -/
  left : List Nat
  /-- data to write, or data read -/
  data : List Byte
  status : Status
  /-- first poisoned granule read -/
  bad : Nat := 0
  /-- uptime in ns at which it left its core, and at which it was admitted -/
  sent : Nat
  admitted : Nat
  /-- uptime of the service slot of its last granule served -/
  served : Nat := 0
  /-- core cycle in which it was made, then in which it left its core (R314) -/
  leftAt : Nat := 0
  deriving DecidableEq, Repr

/-- A trace record in its unit's queue (R549, R550): cycle, kind, core index, bytes. -/
structure TraceRec where
  cy : Nat
  kind : Nat
  core : Nat
  bytes : List Byte
  deriving DecidableEq, Repr

/-- What is kept of a field besides its registers. -/
structure FieldSt where
  /-- collector queue, oldest first; a record was lost before the next; last deliveries by code and source (R540, R541) -/
  faultQ : List FaultRec := []
  faultLost : Bool := false
  delivered : List (Nat × Nat × Nat) := []
  /-- trace queue (R550) -/
  traceQ : List TraceRec := []
  /-- records accepted in a cycle: the cycle, how many -/
  traceCy : Nat × Nat := (0, 0)
  /-- transactions of the gateway in order of sending (R312) -/
  txns : List Txn := []
  txnNext : Nat := 0
  /-- Quartz time at which the current step started (R56) -/
  stepStart : Nat := 0
  /-- admission: nanosecond and admissions in it; admissions of the window of 64, firmware's and host's ahead of compiled
  ones (R314, R325) -/
  admNow : Nat × Nat := (0, 0)
  admWin : Nat × Nat × Nat := (0, 0, 0)
  /-- tracker entries freed: nanosecond and entries in it (R314) -/
  freedNow : Nat × Nat := (0, 0)
  /-- last service slot used by each channel, last refresh slot, as Quartz time + 1 (R311) -/
  chUsed : SMap Nat := []
  refUsed : Nat := 0
  /-- bytes of classes 2 and 3 in a microsecond: the microsecond, host, RDMA (R326) -/
  budget : Nat × Nat × Nat := (0, 0, 0)
  /-- scrub: rows passed by each channel (R323) -/
  scrub : SMap Nat := []
  /-- passes completed before the last module reset (R335) -/
  scrubBase : Nat := 0
  /-- channels with a scrub correction to write back, last scrub slot used (R323) -/
  scrubFix : List Nat := []
  scrubUsed : SMap Nat := []
  /-- a probe is running since this Quartz time (R329) -/
  probe : Option Nat := none
  /-- stretches (R344 to R349): lag in half cycles since the last phase reset, cycle of the last stretch, requests pending (the
  cycle each asks for, and whether a droop asks, else balancing), cycles of the droop stretches of the last 65,536 -/
  lag : Nat := 0
  stretchLast : Option Nat := none
  stretchReqs : List (Nat × Bool) := []
  droops : List Nat := []
  /-- poisoned granules, by module granule number (R322) -/
  poison : List Nat := []
  /-- fence written and not yet applied: its cause (R28) -/
  fenceReq : Option Nat := none
  /-- finer digests by buffer entry, entries of the write log, where capture runs (R450, R451) -/
  fine : SMap Nat := []
  fineLog : List (List Byte) := []
  /-- events of each class by 8 × class + task, 4 for shared; as they stood at the last microsecond (R497) -/
  acts : SMap Nat := []
  actSeen : SMap Nat := []
  /-- fractions of a nJ that the energy registers do not show: tasks 0 to 3, shared, all; in 1/36,864,000 nJ (R497) -/
  eFrac : SMap Nat := []
  /-- fraction of a ns of the field Quartz time in local mode, in 1/m parts (R361) -/
  qFrac : Nat := 0
  /-- the field holds its time until the module counter reaches it (R362) -/
  qHold : Bool := false
  deriving DecidableEq, Repr

/-! ## Clusters and Garnet lines (chapters 7, 8) -/

/-- Steward states of R221. HUSH and FENCED are shown over the state kept here. -/
inductive StewMode where
  | reset | run | waitdp | halted | faulted
  deriving DecidableEq, Repr

/-- A CTRINC that has issued and is not applied (R228): its first cycle, the number of the TSSTs issued before it, core
(none: all), counter, amount. -/
structure CtrInc where
  due : Nat
  after : Nat
  core : Option Nat
  ctr : Nat
  amt : BitVec 16
  deriving DecidableEq, Repr

/-- What is kept of a cluster besides its registers and its steward memory. -/
structure CluSt where
  /-- state (R221), start word armed (R222), s0 to s15, pc (R220) -/
  mode : StewMode := .reset
  armed : Option Nat := none
  regs : List W32 := List.replicate 16 0#32
  pc : Nat := 0
  /-- first cycle in which the next instruction may issue (R228) -/
  freeAt : Nat := 0
  /-- upper half of the Quartz time sampled by QTIME -/
  latch : W32 := 0#32
  /-- WAITDP in progress: cycle of issue and horizon register (R233) -/
  wait : Option (Nat × Nat) := none
  /-- a WAITDP has completed since the last RELEASE (R235) -/
  waited : Bool := false
  /-- RELEASE first held by R235 in this cycle -/
  relFrom : Option Nat := none
  /-- TSST issued so far, those not accepted, CTRINC not applied (R228) -/
  tsstNext : Nat := 0
  tsstOut : List Nat := []
  incs : List CtrInc := []
  /-- a TSLD whose word is outstanding: destination register, cycle of issue -/
  tsld : Option (Nat × Nat) := none
  /-- last cycle in which the outstanding TSLD found its port free (R228) -/
  tsldFree : Option Nat := none
  /-- summary words that have landed in this cycle: entry, word (R230) -/
  landed : List (Nat × W64) := []
  /-- consecutive cycles in which the conditions of R267 have held, at most 16; 17 once DEADLOCK has been raised for them -/
  closedFor : Nat := 0
  /-- fence written and not yet applied: its cause (R246) -/
  fenceReq : Option Nat := none
  /-- cluster digests of the current step and of the steps after it (R445, R447) -/
  digs : List Nat := []
  deriving DecidableEq, Repr

/-- What is kept of a Garnet line: cycle of the last arrival (R260), a hush that the last arrival at a hush point has found
requested (R353), Quartz time of the last arrival in each fallback group (R265). -/
structure GarSt where
  last : Nat := 0
  hush : Bool := false
  lastNs : List Nat := List.replicate 16 0
  deriving DecidableEq, Repr

/-! ## Clocks (chapter 11) -/

/-- Why a forced stop stands (R351, R536, R490, R499, R514, R527). -/
inductive StopCause where
  | slack | slip | reserve | brace | reset | stop
  deriving DecidableEq, Repr

/-- What is kept of the clocks besides their registers. -/
structure ClkSt where
  /-- a module start pulse has come since the cores were last reset (R363) -/
  started : Bool := false
  /-- 0 running, 1 scheduled hush, 2 idle hush, 3 forced stop -/
  kind : Nat := 0
  /-- what a forced stop stands for -/
  causes : List StopCause := []
  /-- when the stop began (`State.ns`, as all that follow but armed) -/
  since : Nat := 0
  /-- Quartz time of the armed start pulse -/
  armed : Option Nat := none
  /-- reference inputs: qualified since (R338) -/
  aQual : Option Nat := none
  bQual : Option Nat := none
  /-- a reference switch in progress: to which input; when the last one completed (R339) -/
  switchTo : Option Nat := none
  switchDone : Nat := 0
  /-- sources of the Quartz servo: qualified since (R360) -/
  aeltoQual : Option Nat := none
  ptpQual : Option Nat := none
  /-- the last steered edge, and an edge still to be steered: it advances the counter by 2, or by 0 (R359); ns carried by the
  core clock, in 1/m parts of 50 ns (R336) -/
  lastSteer : Option Nat := none
  steer : Option Bool := none
  frac : Nat := 0
  /-- loaded program's target lowers the ceiling to n = 15 (R35) -/
  low : Bool := false
  /-- CLK_FREQ_CTL has been written since the last hush (R349) -/
  freqNew : Bool := false
  /-- PWR_GOV_REQ has made a governor request (R349, R496) -/
  govReq : Bool := false
  /-- the synthesizer is not locked or a rail is not good, as last measured: a hush cannot end (R356, R357; log 70) -/
  unready : Bool := false
  /-- a stop that firmware has aborted, and whose ramp still runs (R350, R491, R536) -/
  aborting : Option StopCause := none
  deriving DecidableEq, Repr

/-! ## Links and domains (chapters 12, 13) -/

/-- A cell that a link has sent and that is not yet acknowledged (R390). -/
structure SentCell where
  /-- frame and position of its last transmission -/
  frame : Nat
  pos : Nat
  lch : Nat
  seq : Nat
  gen : Nat
  rows : List (List Byte)
  /-- egress port core, receive channel of its receipt; none for forwarded cells and step tokens -/
  core : Option (Nat × Nat)
  /-- replays made; time from which it may be replayed again, in 1/6400 ns -/
  tries : Nat := 0
  nakAt : Option Nat := none
  deriving DecidableEq, Repr

/-- A prefetched cell that waits for its position: its number in its link, its channel, generation, egress port core, receipt
channel and ring tile, and its rows as they are read (R384). -/
structure PreCell where
  id : Nat
  lch : Nat
  gen : Nat
  core : Nat
  rcpt : Nat
  tile : Nat
  rows : List (Option (List Byte))
  deriving DecidableEq, Repr

/-- A received cell that waits for its release (R386, R392). -/
structure HeldCell where
  /-- its release time in 1/6400 ns, and the frame that holds it -/
  rel : Nat
  relFrame : Nat
  lch : Nat
  seq : Nat
  gen : Nat
  rows : List (List Byte)
  good : Bool
  late : Bool := false
  deriving DecidableEq, Repr

/-- A forwarded cell that waits for a position (R388): its release time, generation and rows. -/
structure FwdCell where
  rel : Nat
  gen : Nat
  rows : List (List Byte)
  deriving DecidableEq, Repr

/-- What a link port keeps of a link channel: cells sent, next sequence number, forwarded cells waiting. -/
structure LchSt where
  sent : Nat := 0
  seq : Nat := 0
  fwd : List FwdCell := []
  deriving DecidableEq, Repr

/-- A step token on its way out (R410): Quartz time from which it may go, its row's first eleven bytes. -/
structure Token where
  ready : Nat
  step : W64
  release : Bool
  level : Nat
  gen : Nat
  deriving DecidableEq, Repr

/-- A pending spare-in (R374): the frame at whose start both ends remove the lane, and whether it is a transmit lane. -/
structure SpareIn where
  at_ : Nat
  lane : Nat
  tx : Bool
  deriving DecidableEq, Repr

/-- What is kept of a tensor link besides its registers. -/
structure LinkSt where
  /-- training step 1 to 6, 0 when not training; when it began (`State.ns`); frames counted in it (R375) -/
  step : Nat := 0
  since : Nat := 0
  frames : Nat := 0
  /-- when it last failed or its training did (`State.ns`); cause of a failure whose consequences are still to come (R398) -/
  downAt : Nat := 0
  failing : Option Nat := none
  /-- a retrained link carries plan traffic from the next resume on (R399) -/
  quiet : Bool := false
  /-- frames since the last good header (R397) -/
  missed : Nat := 0
  /-- samples of d and of off, newest first (R395) -/
  ds : List Int := []
  offs : List Int := []
  /-- lanes of the transmit direction that are dead; spare-ins pending; lanes that wait for one (R374) -/
  txDead : Nat := 0
  spares : List SpareIn := []
  waiting : List Nat := []
  /-- physical receive lane of each transmitter lane -/
  lanes : List (Option (Fin 34)) := []
  /-- link channels -/
  chans : SMap LchSt := []
  /-- last position processed, as 1,920 × frame + position + 1; the last reserve position taken -/
  pos : Nat := 0
  resv : Nat := 0
  /-- prefetched cells, oldest first; their next number; positions whose prefetch point has passed and which a cell may take:
  frame, position, channel (R384, R388) -/
  pre : List PreCell := []
  preNext : Nat := 0
  slots : List (Nat × Nat × Nat) := []
  /-- replay buffer in order of sending (R390), received cells in order of their first transmission (R386) -/
  sent : List SentCell := []
  held : List HeldCell := []
  /-- positions still to be named in a negative acknowledgment (R390) -/
  naks : List (Nat × Nat) := []
  /-- latest position received, as `pos` -/
  got : Nat := 0
  /-- step tokens to send; time depth received; last management payload -/
  toks : List Token := []
  depth : Nat := 255
  mgmt : List Byte := []
  deriving DecidableEq, Repr

/-- What is kept of the frames, slips and the domain step barrier besides their registers. -/
structure DomSt where
  /-- slip requests known and not applied: effective frame, origin (R393); effective frames of the slips applied -/
  slips : List (Nat × Nat) := []
  slipped : List Nat := []
  /-- Quartz time of the arrival for the current step, of the level's reaching radius, and from which the release is
  applied (R409, R411, R417) -/
  arrived : Option Nat := none
  reached : Option Nat := none
  apply : Option Nat := none
  /-- arrive tokens of later steps: direction, step, level (R411) -/
  ahead : List (Nat × Nat × Nat) := []
  /-- time (`State.ns`) since which the 1588 offset is within 20 ns (R430) -/
  ptpSince : Option Nat := none
  deriving DecidableEq, Repr

/-! ## Twin mode (chapter 14) -/

/-- The report of a completed bisection (R452): step, field, cluster and window; global core index; tag, source, beat and row of
the first differing write; whether background writes of the core also differed. -/
structure TwinReport where
  step : Nat
  field : Nat
  cluster : Nat
  window : Nat
  core : Nat
  tag : Nat
  source : Nat
  beat : Nat
  row : Nat
  background : Bool
  deriving DecidableEq, Repr

/-- Twin records: own ones not yet compared, step of the next one to be sent, the partner's not yet compared, when
the last one was received (`State.ns`). -/
structure TwinSt where
  own : List TwinRec := []
  next : Nat := 0
  peer : List TwinRec := []
  last : Nat := 0
  /-- entries in the write log of the last capture (R451); earliest unit and window that differed at level 1 or 2, and whether
  background entries did; the report of the bisection (R452) -/
  logN : Nat := 0
  earliest : Option (Nat × Nat) := none
  backDiff : Bool := false
  report : Option TwinReport := none
  deriving DecidableEq, Repr

/-! ## Power (chapter 16) -/

/-- A step whose record the energy log does not hold yet (R498): step, phase, Quartz time of its end. -/
structure StepDone where
  step : Nat
  phase : Nat
  at_ : Nat
  deriving DecidableEq, Repr

/-- What is kept of power besides its registers: hardware and firmware state (R484 to R508). -/
structure PwrSt where
  /-- a brace runs since this time (`State.ns`); its dip has ended (R499) -/
  brace : Option Nat := none
  dipOver : Bool := false
  /-- the gateways leave self-refresh with the next refresh frame (R331) -/
  refreshOut : Bool := false
  /-- a ramp runs since this time (`State.ns`, R491) -/
  ramp : Option Nat := none
  /-- a reserve stop holds -/
  reserve : Bool := false
  /-- 100 µs means of the last 100 microseconds, newest first; microseconds since the last one that broke R486 -/
  means : List Nat := []
  calm : Nat := 0
  /-- gauge E_g in µJ (R501) -/
  gauge : Int := 0
  /-- thermal steps taken; fields at or above limit_c, and since when (R504) -/
  steps : Nat := 0
  hot : List (Nat × Nat) := []
  limit : Bool := false
  /-- coolant inlet and outlet, 0.01 °C -/
  tIn : Int := 0
  tOut : Int := 0
  /-- learned nJ per cycle by 32 × phase + n, cycles per interval by phase, phase that followed (R494, R495) -/
  eps : SMap Nat := []
  cyc : SMap Nat := []
  follow : SMap Nat := []
  bank : Nat := 0
  /-- the interval in progress: phase, PWR_ENERGY_IN, cycle, ns of power at its start -/
  ival : Option (Nat × Nat × Nat × Nat) := none
  /-- attribution scale in 1/65536; measured mJ and summed nJ at the last comparison (R498) -/
  scale : Nat := 65536
  scaleFrom : Nat × Nat := (0, 0)
  /-- steps to be logged; task, shared (nJ) and input (mJ) energies and Quartz time at the last record -/
  due : List StepDone := []
  logFrom : List Nat := [0, 0, 0, 0, 0, 0, 0]
  /-- the comparator holds the charge path open; the input stage charges the store (R481) -/
  pathOpen : Bool := false
  charging : Bool := false
  /-- the discharge switch is closed (R503) -/
  discharge : Bool := false
  /-- it closed because the input was absent or the module shut down -/
  dischAbs : Bool := false
  /-- the input and the store, the temperatures have been measured (R474) -/
  seenP : Bool := false
  seenT : Bool := false
  deriving DecidableEq, Repr

/-- Values of the SMBus port as they were last refreshed; 0xFFFF before (R474). Alert bits and mask. -/
structure SmbSt where
  vin : Nat := 0xFFFF
  iin : Nat := 0xFFFF
  pin : Nat := 0xFFFF
  pcap : Nat := 0xFFFF
  energy : Nat := 0xFFFFFFFFFFFFFFFF
  holdup : Nat := 0xFFFF
  tIn : Nat := 0xFFFF
  tOut : Nat := 0xFFFF
  tMax : Nat := 0xFFFF
  alert : Nat := 0
  mask : Nat := 0
  deriving DecidableEq, Repr

/-! ## Host, allocation and RDMA (chapters 10, 15) -/

/-- An open session (R470): key, minor version, features in use. -/
structure Session where
  key : Nat
  minor : Nat
  feats : Nat
  deriving DecidableEq, Repr

/-- An allocation (R327, R328). -/
structure Alloc where
  field : Nat
  off : Nat
  size : Nat
  owner : Nat
  slot : Nat
  seq : Nat
  deriving DecidableEq, Repr

/-- A queue pair (R464, R472). -/
structure QPair where
  group : Nat
  q : Nat
  mtu : Nat
  gid : List Byte
  qpn : Nat
  psns : Nat × Nat
  deriving DecidableEq, Repr

/-- An open RDMA window: number, field, range, gateway window (R466). -/
structure RWin where
  n : Nat
  field : Nat
  lo : Nat
  size : Nat
  group : Nat
  gw : Nat
  deriving DecidableEq, Repr

/-- Host port, sessions, allocation table, queue pairs and windows. -/
structure HostSt where
  /-- PERST# is asserted (R592) -/
  perst : Bool := false
  /-- the PCIe link is up -/
  link : Bool := true
  sessions : List (Option Session) := [none, none, none, none]
  allocs : List Alloc := []
  /-- sequence numbers of record slots that have been freed, by 4,096 × field + slot -/
  seqs : SMap Nat := []
  qps : List QPair := []
  wins : List RWin := []
  /-- a WIN_CLOSE that waits for its range to drain: mailbox, window -/
  closing : List (Nat × Nat) := []
  /-- datagrams for firmware, oldest first (R467) -/
  mgmt : List (List Byte) := []
  /-- per mailbox, responses still to be discarded after a link-down (R473) -/
  discard : List Nat := [0, 0, 0, 0]
  deriving DecidableEq, Repr

/-! ## Boot, images, debug (chapters 17 to 19) -/

/-- What firmware keeps of a signed runtime image in a slot (R516). -/
structure RtImage where
  version : Nat
  entry : Nat
  feats : Nat
  /-- handover record versions written, and oldest read -/
  writes : Nat
  reads : Nat
  deriving DecidableEq, Repr

/-- The loaded program instance (R524). -/
structure Program where
  id : Nat
  image : Nat
  exact : Bool
  addr : Nat
  /-- core and entry, cluster and start word (R526) -/
  entries : List (Nat × Nat)
  starts : List (Nat × Nat)
  /-- fields of its target; draw of its first phase in W -/
  fields : List Nat
  draw : Nat
  /-- handles of its ranges -/
  ranges : List Alloc
  deriving DecidableEq, Repr

/-- A STOP or UPDATE that has asked for a hush (R527, R528): mailbox, when it did (`State.ns`). -/
structure Asked where
  mb : Nat
  since : Nat
  /-- the hush has come, and the module has restarted from it -/
  ready : Bool := false
  /-- a dip has come before the handover, and the update waits for the brace to end (R531) -/
  waits : Bool := false
  deriving DecidableEq, Repr

/-- A defect of the service repair record (R30): field, and logical row and physical column of a core, or a channel. -/
inductive Defect where
  | core (f row col : Nat)
  | channel (f ch : Nat)
  deriving DecidableEq, Repr

/-- A record of the flash log (R512, R542): where it stands in the ring, the fault record's sequence number and bytes, its
unreported mark; a crash record of a core has no bytes here. -/
structure FlashRec where
  pos : Nat
  seq : Nat
  unreported : Bool
  crash : Option Nat
  bytes : List Byte
  deriving DecidableEq, Repr

/-- What is kept of boot and runtime firmware besides their registers. -/
structure BootSt where
  /-- the mate-detect loop is closed (R586); the input stage supplies power -/
  mated : Bool := true
  power : Bool := true
  /-- bytes of the boot flash written since the factory -/
  flash : List Host.Cell := []
  /-- crash and fault log in the flash, oldest first, and how many records it has ever taken (R515, R542) -/
  flog : List FlashRec := []
  flogN : Nat := 0
  /-- service repair record (R30): defects found in service -/
  defects : List Defect := []
  /-- deadline of each armed watchdog -/
  dogs : List (Option Nat) := [none, none, none, none, none]
  /-- runtime slots -/
  slots : List (Option RtImage) := [none, none]
  /-- the runtime image was started at this time (`State.ns`) and has not replied; mailbox of its IMAGE_COMMIT -/
  starting : Option (Nat × Nat) := none
  prog : Option Program := none
  nextId : Nat := 1
  /-- STOP in progress, UPDATE in progress -/
  stop : Option Asked := none
  update : Option Asked := none
  /-- takeover since -/
  takeover : Option Nat := none
  /-- the handover record in Carnelian's SRAM, empty where none has been written; its valid word; the new image's acceptance
  (R510, R528, R529) -/
  handover : List Byte := []
  handValid : Bool := false
  handAccepted : Bool := false
  /-- FLASH holds the boot core; DBG_EN is high; boundary register, bypass bit, EXTEST drives
  the pins; SCAN has been run -/
  flashHold : Bool := false
  dbgEn : Bool := false
  boundary : List Bool := []
  bypass : Bool := false
  driving : Bool := false
  scanned : Bool := false
  /-- fault log: when MSI-X vector 8 was last signalled (`State.ns`); first sequence number that the host has not read -/
  msi8 : Option Nat := none
  faultsRead : Nat := 0
  deriving DecidableEq, Repr

/-- The answer to an access from outside: status and data. -/
structure Reply where
  status : Status
  data : List Byte
  deriving DecidableEq, Repr

/-- The whole module. -/
structure State where
  /-- commands that are waiting, first in, first out -/
  pending : List Instr
  /-- how many free values have been drawn (the model's own field) -/
  freeCtr : Nat
  /-- core cycles since the clocks started (R17) -/
  cycle : Nat
  /-- byte stores over the module address space: stacked memory, tile stores, instruction stores, accumulators, vector
  tiles, steward memories, mailbox rings -/
  mem : List Host.Cell
  /-- registers that differ from their reset value, by module address (R13, R582) -/
  regs : SMap W64
  /-- RWH registers written and not yet in effect (R15) -/
  shadow : SMap W64
  /-- cores that differ from their reset state, by global core index -/
  cores : SMap CoreSt
  /-- fields that differ from their reset state -/
  fields : SMap FieldSt
  /-- clusters that differ from their reset state, by 256 × field + cluster -/
  clus : SMap CluSt
  /-- Garnet lines that differ from their reset state -/
  gar : SMap GarSt
  /-- what MOD_STEP_SET has set; CORE_STEP counts from it (R442) -/
  stepBase : W64
  /-- module-scope release of the realign line, not yet taken by a realign (R252) -/
  realDue : Option Nat
  /-- edges of the Quartz clock since power came, which nothing sets or steers: lengths of time are counted in it (R336) -/
  ns : Nat
  /-- clocks -/
  clk : ClkSt
  /-- tensor links, by number -/
  links : SMap LinkSt
  /-- frames, slips, domain step barrier -/
  dom : DomSt
  /-- twin mode -/
  twin : TwinSt
  /-- power -/
  pwr : PwrSt
  /-- SMBus port -/
  smb : SmbSt
  /-- host port, allocation table, RDMA -/
  host : HostSt
  /-- boot, firmware images, program instance, debug port -/
  boot : BootSt
  /-- MSI-X vectors signalled and not yet taken by the host (R468) -/
  msix : List Nat
  /-- fault records of units outside the wafer, on their way to the log (R540) -/
  carQ : List FaultRec
  /-- what the last access or request from outside was answered with -/
  reply : Option Reply
  /-- the core clocks run: a start pulse has come and no hush or forced stop holds the fields -/
  clocksOn : Bool
  deriving DecidableEq, Repr

/-- The machine right after a module reset (R582): every register at its reset value, nothing listed. -/
def State.reset : State :=
  { pending := [], freeCtr := 0, cycle := 0, mem := [], regs := [], shadow := [], cores := [], fields := [], clus := [], gar := []
    clk := {}, stepBase := 0#64, realDue := none, ns := 0, links := [], dom := {}, twin := {}, pwr := {}, smb := {}, host := {}, boot := {}, msix := [], carQ := [], reply := none, clocksOn := false }

/-- What a command's meaning answers. -/
abbrev Out := Host.Outcome State Fault Refusal

end Sys2Proof.Machine
end

