-- ==== Sys2Proof/Machine/Ops.lean ====
section
/-! DEFINITION. Machine/Ops.lean: the named operations over memory, registers, cores, counters and the fault record,
that every meaning is written over. -/
namespace Sys2Proof.Machine
open Sys2Proof

/-! ## Addresses (R9, R13, R14, R577) -/

/-- Field of a core (R9). -/
def fieldOfCore (c : Nat) : Nat := 8 * (c / 1024 / 128) + c % 1024 / 128
/-- Core column in its field. -/
def cxOf (c : Nat) : Nat := c % 1024 % 128
/-- Core row in its field. -/
def cyOf (c : Nat) : Nat := c / 1024 % 128
/-- Cluster number in the field (R9). -/
def cluInField (c : Nat) : Nat := 16 * (cyOf c / 8) + cxOf c / 8
/-- Cluster of the module, 256 × field + cluster. -/
def cluOf (c : Nat) : Nat := 256 * fieldOfCore c + cluInField c
/-- Cluster-local core number k (R219): 8 × (cy mod 8) + cx mod 8. -/
def localOf (c : Nat) : Nat := 8 * (cyOf c % 8) + cxOf c % 8
/-- Global index of the core at (cx, cy) of a field. -/
def coreAt (f cx cy : Nat) : Nat := 1024 * (128 * (f / 8) + cy) + 128 * (f % 8) + cx
/-- Global index of the core `k` of a cluster of the module. -/
def coreOfClu (clu k : Nat) : Nat :=
  let n := clu % 256
  coreAt (clu / 256) (8 * (n % 16) + k % 8) (8 * (n / 16) + k / 8)

/-- Core window (R13). -/
def coreBase (c : Nat) : Nat := 0x200000000000 + c * 0x20000
/-- Byte b of absolute row a (R86). -/
def tileAddr (c row b : Nat) : Nat := coreBase c + 32 * row + b
/-- Instruction-store word (R37). -/
def imemAddr (c word : Nat) : Nat := coreBase c + 0xC000 + 32 * word
/-- Accumulator element (R144). -/
def accAddr (c blk elem : Nat) : Nat := coreBase c + 0x10000 + 0x100 * blk + 0x10 * elem
/-- Vector-tile lane (R186). -/
def vtileAddr (c u lane : Nat) : Nat := coreBase c + 0x14000 + 0x40 * u + 4 * lane
/-- A core register. -/
def coreReg (c off : Nat) : Nat := coreBase c + 0x18000 + off
/-- A field register. -/
def fieldReg (f off : Nat) : Nat := 0x300000000000 + f * 0x1000000 + off
/-- A cluster register, `k` = 256 × field + cluster. -/
def cluReg (k off : Nat) : Nat := 0x300000400000 + k / 256 * 0x1000000 + 0x1000 * (k % 256) + off
/-- A byte of steward memory. -/
def stewMem (k off : Nat) : Nat := 0x300000800000 + k / 256 * 0x1000000 + 0x4000 * (k % 256) + off
/-- A module register. -/
def modReg (off : Nat) : Nat := 0x3F0000000000 + off
/-- A link register. -/
def linkReg (l off : Nat) : Nat := 0x3F0001000000 + l * 0x10000 + off
/-- A byte of a mailbox. -/
def mbAddr (m off : Nat) : Nat := 0x3F1000000000 + m * 0x10000 + off
/-- First byte of a field's stacked memory. -/
def memBase (f : Nat) : Nat := f * 0x400000000

/-- Logical channel of granule g of a field (R310). -/
def chanOf (g : Nat) : Nat :=
  (g % 32) ^^^ (g / 32 % 32) ^^^ (g / 1024 % 32) ^^^ (g / 32768 % 32) ^^^ (g / 1048576 % 32) ^^^ (g / 33554432 % 8)
/-- Logical channel of a stacked-memory address. -/
def chanOfAddr (a : Nat) : Nat := chanOf (a % 0x400000000 / 64)

/-- The blocks of R577 with unit, sub-unit and offset. -/
inductive Place where
  | stacked (f off : Nat)
  | core (c off : Nat)
  | field (f off : Nat)
  | cluster (k off : Nat)
  | steward (k off : Nat)
  | module (off : Nat)
  | link (l off : Nat)
  | mailbox (m off : Nat)
  deriving DecidableEq, Repr

/-- The block an address lies in; none outside every block (R577). -/
def decodeAddr (a : Nat) : Option Place :=
  if a < 0x10000000000 then some (.stacked (a / 0x400000000) (a % 0x400000000))
  else if 0x200000000000 ≤ a ∧ a < 0x202000000000 then some (.core ((a - 0x200000000000) / 0x20000) (a % 0x20000))
  else if 0x300000000000 ≤ a ∧ a < 0x300040000000 then
    let f := a / 0x1000000 % 64
    let o := a % 0x1000000
    if o < 0x400000 then some (.field f o)
    else if o < 0x500000 then some (.cluster (256 * f + (o - 0x400000) / 0x1000) (o % 0x1000))
    else if 0x800000 ≤ o ∧ o < 0xC00000 then some (.steward (256 * f + (o - 0x800000) / 0x4000) (o % 0x4000))
    else none
  else if 0x3F0000000000 ≤ a ∧ a < 0x3F0000010000 then some (.module (a % 0x10000))
  else if 0x3F0001000000 ≤ a ∧ a < 0x3F0001300000 then some (.link ((a - 0x3F0001000000) / 0x10000) (a % 0x10000))
  else if 0x3F1000000000 ≤ a ∧ a < 0x3F1000040000 then some (.mailbox (a / 0x10000 % 4) (a % 0x10000))
  else none

/-! ## Byte memory -/

/-- What a byte that nothing has written reads as: 0 (DESIGN CHOICE: R108, R146 and R187 call the contents after
power-up undefined). -/
def Memory.empty : Byte := 0#8

/-- The canonical form of the byte memory. -/
def Memory.wf (m : List Host.Cell) : Bool := smWf (fun _ => Memory.empty) m

/-- Reads one byte. -/
def rdByte (s : State) (a : Nat) : Byte := smGet Memory.empty a s.mem

/-- Writes one byte. -/
def wrByte (s : State) (a : Nat) (b : Byte) : State := { s with mem := smPut Memory.empty a b s.mem }

/-- Reads n bytes. -/
def rdBytes (s : State) (a : Nat) : Nat → List Byte
  | 0 => []
  | n + 1 => rdByte s a :: rdBytes s (a + 1) n

/-- Writes bytes from an address on. -/
def wrBytes (s : State) (a : Nat) : List Byte → State
  | [] => s
  | b :: l => wrBytes (wrByte s a b) (a + 1) l

/-- Little-endian bytes to a number (R10). -/
def leNat : List Byte → Nat
  | [] => 0
  | b :: l => b.toNat + 256 * leNat l

/-- n little-endian bytes of a number (R10). -/
def natLe : Nat → Nat → List Byte
  | 0, _ => []
  | n + 1, x => BitVec.ofNat 8 x :: natLe n (x / 256)

/-- Reads n little-endian bytes as a number. -/
def rdNat (s : State) (a n : Nat) : Nat := leNat (rdBytes s a n)

/-- Writes a number as n little-endian bytes. -/
def wrNat (s : State) (a n x : Nat) : State := wrBytes s a (natLe n x)

/-! ## Registers -/

/-- The value a register has at reset (R582): its row's reset value, and the fused identities. -/
def regReset (a : Nat) : W64 :=
  let row (b : Blk) (o : Nat) : W64 := match findReg b o with
    | some d => BitVec.ofNat 64 d.reset
    | none => 0#64
  match decodeAddr a with
  | some (.core _ o) => if 0x18000 ≤ o then row .core (o - 0x18000) else 0#64
  | some (.field f o) =>
    if o = oFldIdent then BitVec.ofNat 64 (f / 8 * 256 + f % 8 * 16 + 1)
    else if oFldActCoef ≤ o ∧ o < oFldActCoef + 512 ∧ o % 8 = 0 then
      (Config.actCoef f ((o - oFldActCoef) / 8)).zeroExtend 64
    else row .field o
  | some (.cluster _ o) => row .cluster o
  | some (.module o) =>
    if o = oModIdent then
      BitVec.ofNat 64 (setBitsOf (setBitsOf 0x0064008800000000 47 44 (if Config.gradeTwo then 2 else 1)) 43 40 Config.stepping.toNat)
    else if o = oClkFreqStatus then BitVec.ofNat 64 (setBitsOf (960 * 2 ^ 32 + 12) 12 8 (if Config.gradeTwo then 15 else 18))
    else if o = oModJtagIdcode then BitVec.ofNat 64 (Config.stepping.toNat * 2 ^ 28 + 0x006454B)
    else if o = oCarWdogCtl then 1000#64
    else row .module o
  | some (.link l o) =>
    if l < 40 then row .link o
    else if o = oSvcEthMac then (Config.serviceMac (l - 40)).zeroExtend 64
    else row .service o
  | _ => 0#64

/-- A register as it is held in `regs`. -/
def getReg (s : State) (a : Nat) : W64 := match smFind a s.regs with
  | some v => v
  | none => regReset a

/-- Sets a register whole. -/
def setReg (s : State) (a : Nat) (v : W64) : State := { s with regs := smPut (regReset a) a v s.regs }

/-- Bits [hi:lo] of a register. -/
def getF (s : State) (a hi lo : Nat) : Nat := bitsOf (getReg s a).toNat hi lo

/-- Sets bits [hi:lo] of a register. -/
def setF (s : State) (a hi lo v : Nat) : State :=
  setReg s a (BitVec.ofNat 64 (setBitsOf (getReg s a).toNat hi lo v))

/-- Adds to bits [hi:lo] of a register; the counters of this manual wrap at their width (R110, R185, R218). -/
def addF (s : State) (a hi lo n : Nat) : State := setF s a hi lo (getF s a hi lo + n)

/-- Adds to bits [hi:lo], staying at the largest value. -/
def satF (s : State) (a hi lo n : Nat) : State := setF s a hi lo (min (getF s a hi lo + n) (2 ^ (hi + 1 - lo) - 1))

/-- Bit i of a register. -/
def getB (s : State) (a i : Nat) : Bool := bitOf (getReg s a).toNat i

/-- Module Quartz time in ns: QTZ_TIME (R359). -/
def quartz (s : State) : Nat := (getReg s (modReg oQtzTime)).toNat

/-! ## Free values -/

/-- Takes a free value: the spec leaves it open, and nothing constrains it. -/
def drawFree (s : State) : W64 × State := (Config.freeValue s.freeCtr, { s with freeCtr := s.freeCtr + 1 })

/-! ## Cores -/

/-- A core's state. -/
def getCore (s : State) (c : Nat) : CoreSt := smGet {} c s.cores

/-- Replaces a core's state. -/
def setCore (s : State) (c : Nat) (x : CoreSt) : State := { s with cores := smPut {} c x s.cores }

/-- Changes a core's state. -/
def modCore (s : State) (c : Nat) (f : CoreSt → CoreSt) : State := setCore s c (f (getCore s c))

/-- The running task's record. -/
def curTask (x : CoreSt) : TaskSt := x.tasks.getD x.task ⟨0, [0, 0, 0, 0], 0, [0, 0, 0, 0], 0, []⟩

/-- Replaces the running task's record. -/
def setTask (x : CoreSt) (t : TaskSt) : CoreSt := { x with tasks := x.tasks.set x.task t }

/-- A task's record. -/
def taskAt (x : CoreSt) (t : Nat) : TaskSt := x.tasks.getD t ⟨0, [0, 0, 0, 0], 0, [0, 0, 0, 0], 0, []⟩

/-- Is the core's field or cluster fenced (R28, R246)? -/
def coreFenced (s : State) (c : Nat) : Bool :=
  getB s (fieldReg (fieldOfCore c) oFldFenceStatus) 0 || getB s (cluReg (cluOf c) oCluFenceStatus) 0

/-! ## Fields -/

/-- A field's state. -/
def getField (s : State) (f : Nat) : FieldSt := smGet {} f s.fields

/-- Replaces a field's state. -/
def setField (s : State) (f : Nat) (x : FieldSt) : State := { s with fields := smPut {} f x s.fields }

/-- Changes a field's state. -/
def modField (s : State) (f : Nat) (g : FieldSt → FieldSt) : State := setField s f (g (getField s f))

/-! ## Stops (R351) -/

/-- Pending stretch requests are discarded at a stop (R345). -/
def dropStretches (s : State) : State :=
  (smKeys s.fields).foldl (fun s f =>
    if (getField s f).stretchReqs.isEmpty then s else modField s f fun x => { x with stretchReqs := [] }) s

/-- A forced stop begins: the core clocks stop at any cycle and nothing is applied; during a hush the cause only makes the
module stay stopped after it (R358). -/
def forcedStop (s : State) (cause : StopCause) : State :=
  let k := s.clk
  let ks := if k.causes.contains cause then k.causes else k.causes ++ [cause]
  if k.kind ≠ 0 then { s with clk := { k with causes := ks } }
  else
    let s := { s with clocksOn := false, clk := { k with kind := 3, causes := ks, since := s.ns } }
    let s := dropStretches s
    setF (setF s (modReg oClkHushStatus) 34 34 1) (modReg oClkHushStatus) 33 32 3

/-! ## Clusters and Garnet lines -/

/-- A cluster's state, by 256 × field + cluster. -/
def getClu (s : State) (k : Nat) : CluSt := smGet {} k s.clus

/-- Replaces a cluster's state. -/
def setClu (s : State) (k : Nat) (x : CluSt) : State := { s with clus := smPut {} k x s.clus }

/-- Changes a cluster's state. -/
def modClu (s : State) (k : Nat) (g : CluSt → CluSt) : State := setClu s k (g (getClu s k))

/-- A Garnet line's state. -/
def getGar (s : State) (n : Nat) : GarSt := smGet {} n s.gar

/-- Replaces a Garnet line's state. -/
def setGar (s : State) (n : Nat) (x : GarSt) : State := { s with gar := smPut {} n x s.gar }

/-! ## Links -/

/-- State of a link. -/
def getLink (s : State) (l : Nat) : LinkSt := smGet {} l s.links
/-- Replaces a link's state. -/
def setLink (s : State) (l : Nat) (x : LinkSt) : State := { s with links := smPut {} l x s.links }
/-- Changes a link's state. -/
def modLink (s : State) (l : Nat) (g : LinkSt → LinkSt) : State := setLink s l (g (getLink s l))

/-! ## Activity (R497) -/

/-- Counts events of a class for a task of a field; task 4 is shared. -/
def actAt (s : State) (f cls task n : Nat) : State :=
  if n = 0 then s
  else modField s f fun x => { x with acts := smPut 0 (8 * cls + task) (smGet 0 (8 * cls + task) x.acts + n) x.acts }

/-- Counts events that a core's running task has caused. -/
def act (s : State) (c cls n : Nat) : State := actAt s (fieldOfCore c) cls (getCore s c).task n

/-- Counts shared events of a field. -/
def actShared (s : State) (f cls n : Nat) : State := actAt s f cls 4 n

/-- Signals an MSI-X vector to a host that is there (R468, R592). -/
def signalHost (s : State) (v : Nat) : State :=
  if !s.host.link || s.host.perst || s.msix.contains v then s else { s with msix := s.msix ++ [v] }

/-- Sets an SMBus alert bit (R474); a power or thermal alert that is new signals vector 11 (R468). -/
def raiseAlert (s : State) (bit : Nat) : State :=
  if bitOf s.smb.alert bit then s
  else
    let s := { s with smb := { s.smb with alert := s.smb.alert + 2 ^ bit } }
    if bit = 5 ∨ bit = 6 then s else signalHost s 11

/-- Clears an SMBus alert bit. -/
def dropAlert (s : State) (bit : Nat) : State :=
  if bitOf s.smb.alert bit then { s with smb := { s.smb with alert := s.smb.alert - 2 ^ bit } } else s

/-- Answers an access from outside. -/
def answer (s : State) (st : Status) (data : List Byte) : State := { s with reply := some ⟨st, data⟩ }

/-- The step number of a core: CORE_STEP (R254), counted from what MOD_STEP_SET has set (R442). -/
def coreStep (s : State) (c : Nat) : W64 := s.stepBase + getReg s (coreReg c oCoreStep)

/-! ## Traces (R548 to R550) -/

/-- Inserts a record: records of one cycle stand in the order of the kinds, then of the cores (R550). -/
def insertTrace (r : TraceRec) : List TraceRec → List TraceRec
  | [] => [r]
  | q :: l =>
    if q.cy = r.cy ∧ (r.kind < q.kind ∨ (r.kind = q.kind ∧ r.core < q.core)) then r :: q :: l else q :: insertTrace r l

/-- A field's trace unit selects an event of a core, with its tag where the event has one (R548). -/
def traceSelects (s : State) (f c kind : Nat) (tag : Option (BitVec 20)) : Bool :=
  let i := 128 * cyOf c + cxOf c
  let flt := fieldReg f oFldTraceFilter
  let tg := fieldReg f oFldTraceTag
  getB s (fieldReg f oFldTraceCtl) 63 && getB s (fieldReg f oFldTraceCtl) kind && !getB s (fieldReg f oFldTraceStatus) 62 &&
    decide (getF s flt 63 50 ≤ i) && decide (i ≤ getF s flt 49 36) &&
    match tag with
    | some t => ((t.toNat ^^^ getF s tg 19 0) &&& getF s tg 51 32) == 0
    | none => true

/-- Captures an event: `c` selects, `shown` is the core index recorded. At most 4 records a cycle and 256 in the queue;
others are dropped and counted (R550). -/
def traceEv (s : State) (c shown kind : Nat) (tag : Option (BitVec 20)) (data : Nat) : State :=
  let f := fieldOfCore c
  if !traceSelects s f c kind tag then s
  else
    let x := getField s f
    let n := if x.traceCy.1 = s.cycle then x.traceCy.2 else 0
    if 4 ≤ n ∨ 256 ≤ x.traceQ.length then addF s (fieldReg f oFldTraceStatus) 47 32 1
    else
      let w2 := kind * 2 ^ 56 + shown * 2 ^ 20 + (tag.getD 0#20).toNat
      let bytes := natLe 8 (getReg s (fieldReg f oFldQtzTime)).toNat ++ natLe 8 (coreStep s c).toNat ++ natLe 8 w2 ++ natLe 8 (data % 2 ^ 40)
      setField s f { x with traceQ := insertTrace ⟨s.cycle, kind, shown, bytes⟩ x.traceQ, traceCy := (s.cycle, n + 1) }

/-- An event of a core. -/
def trace (s : State) (c kind : Nat) (tag : Option (BitVec 20)) (data : Nat) : State := traceEv s c c kind tag data

/-! ## Fault records (R535, R538, R540) -/

/-- Codes of R535. -/
def faultCode : FaultName → Nat
  | .illegalCommand => 0x1001 | .boundViolation => 0x1002 | .rangeHazard => 0x1003 | .queueOverrun => 0x1004
  | .bankConflict => 0x1005 | .conveyorMiss => 0x1006 | .waitTimeout => 0x2001 | .deadlock => 0x2002
  | .countDrift => 0x2003 | .barrierEarly => 0x2004 | .deadlineMiss => 0x2005 | .garnetRail => 0x2006
  | .meshError => 0x3001 | .staleMessage => 0x3002 | .eccUncorrected => 0x4001 | .decisionEarly => 0x5001
  | .linkLost => 0x6001 | .slipMissed => 0x6002 | .stepLate => 0x6003 | .slackExhausted => 0x7001
  | .clockHoldover => 0x7002 | .railTimeout => 0x7003 | .powerBrace => 0x8001 | .thermalLimit => 0x8002
  | .watchdogExpired => 0x9001 | .faultPath => 0x9002 | .storeLocked => 0xA001 | .configRejected => 0xA002
  | .accessDenied => 0xA003 | .targetFenced => 0xA004 | .foreignFree => 0xA005 | .doubleFree => 0xA006
  | .twinDivergence => 0xB001 | .fenceApplied => 0xC001

/-- The four words of a record, little-endian (R538). -/
def recBytes (r : FaultRec) : List Byte :=
  natLe 8 r.time.toNat ++ natLe 8 r.step.toNat ++
    natLe 8 (faultCode r.name * 2 ^ 48 + r.unit % 8 * 2 ^ 45 + r.fatal.toNat * 2 ^ 44 + r.fence.toNat * 2 ^ 43 +
      r.cont.toNat * 2 ^ 42 + r.lost.toNat * 2 ^ 41 + r.secondary.toNat * 2 ^ 40 + r.loc % 2 ^ 20 * 2 ^ 20 + r.tag.toNat) ++
    natLe 8 r.detail

/-- A unit delivers a record, with its continuations, to its field's collector, which holds 64 (R539, R540). -/
def queueGroup (s : State) (f : Nat) (r : FaultRec) (more : List FaultRec) : State :=
  let x := getField s f
  if 64 ≤ (x.faultQ.filter fun q => !q.cont).length then
    addF (addF (setField s f { x with faultLost := true }) (fieldReg f oFldFaultStatus) 63 32 1) (modReg oModFaultLost) 63 32 1
  else
    let s := setField s f { x with faultQ := x.faultQ ++ { r with lost := x.faultLost } :: more, faultLost := false }
    match r.unit with
    | 0 => trace s r.loc 0x0C (some r.tag) (faultCode r.name)
    | 1 => traceEv s (coreOfClu r.loc 0) 0xFFFFF 0x0C none (faultCode r.name)
    | _ => s

/-- A unit delivers a record without continuations. -/
def queueFault (s : State) (f : Nat) (r : FaultRec) : State := queueGroup s f r []

/-- A unit outside the wafer delivers a record to Carnelian. -/
def queueCar (s : State) (r : FaultRec) : State := { s with carQ := s.carQ ++ [r] }

/-- The record of a core's fault. -/
def coreRec (s : State) (c : Nat) (n : FaultName) (tag : BitVec 20) (detail : Nat) : FaultRec :=
  ⟨n, 0, true, false, false, false, (getCore s c).mode == .faulted, c, tag, getReg s (fieldReg (fieldOfCore c) oFldQtzTime),
    coreStep s c, detail, c⟩

/-- A record of a core's event, which stops nothing. -/
def coreEvent (s : State) (c : Nat) (n : FaultName) (tag : BitVec 20) (detail source : Nat) : FaultRec :=
  { coreRec s c n tag detail with fatal := false, secondary := false, source := source }

/-- A record of a field or a gateway. -/
def fieldRec (s : State) (f unit : Nat) (n : FaultName) (fatal fence : Bool) (detail : Nat) : FaultRec :=
  ⟨n, unit, fatal, fence, false, false, false, f, 0#20, getReg s (fieldReg f oFldQtzTime), coreStep s 0, detail, f⟩

/-- A record of a unit outside the wafer: link 4, module 5, Carnelian core 6. -/
def carRec (s : State) (unit loc : Nat) (n : FaultName) (fatal fence : Bool) (detail : Nat) : FaultRec :=
  ⟨n, unit, fatal, fence, false, false, false, loc, 0#20, getReg s (modReg oQtzTime), coreStep s 0, detail, loc⟩

/-! ## Core faults (R51) -/

/-- A fill that has not landed when its core faults, or that is cancelled, lands and is discarded (R51, R74). -/
def cancelFill (f : Fill) : Fill := if f.rowsLeft = 0 then f else { f with cancelled := true }

/-- The fills of a task that a fault cancels. -/
def inFlight (x : CoreSt) : Nat := (x.tasks.map fun t => (t.fills.filter fun f => f.rowsLeft ≠ 0 && !f.cancelled).length).sum

/-- The detail word of a core's fault (R538): the slot; the other tag for RANGE_HAZARD; for the other codes what the caller
gives. -/
def coreDetail (n : FaultName) (slot other : Nat) : Nat :=
  match n with
  | .illegalCommand | .queueOverrun | .conveyorMiss => slot % 8 * 2 ^ 52
  | .boundViolation | .rangeHazard | .bankConflict => slot % 8 * 2 ^ 52 + other
  | _ => other

/-- What R51 does to a core that is not yet FAULTED: commands begun complete, queued commands are discarded, the fetch
engine stops and its fills in flight are cancelled, the core enters FAULTED and CORE_FAULT_INFO records the tags. -/
def coreStop (s : State) (c : Nat) (n : FaultName) (tag : BitVec 20) (slot other : Nat) : State :=
  let x := getCore s c
  if x.mode = .faulted then s
  else
    let lost := inFlight x
    let s := setCore s c
      { x with mode := .faulted, cmds := x.cmds.filter (·.begun.isSome), fetchDead := true, waitSince := none, missed := false
               hpHold := false, sbHold := false, snap := none
               tasks := x.tasks.map fun t => { t with fills := t.fills.map cancelFill } }
    let s := addF s (coreReg c oCoreRingStatus) 63 32 lost
    setReg s (coreReg c oCoreFaultInfo)
      (BitVec.ofNat 64 (2 ^ 63 + slot % 8 * 2 ^ 40 + (if n = .rangeHazard then other % 2 ^ 20 else 0) * 2 ^ 20 + tag.toNat))

/-- A core faults (R51). A core already FAULTED only has the fault recorded. `other` is the pending writer's tag of a
RANGE_HAZARD, and otherwise the rest of the detail word. -/
def coreFault (s : State) (c : Nat) (n : FaultName) (tag : BitVec 20) (slot other : Nat) : State :=
  coreStop (queueFault s (fieldOfCore c) (coreRec s c n tag (coreDetail n slot other))) c n tag slot other

/-! ## Counters (R53, R249) -/

/-- The visible value of a counter: field k of CORE_CTRVALn. -/
def ctrVal (s : State) (c i : Nat) : BitVec 16 :=
  BitVec.ofNat 16 (getF s (coreReg c (oCoreCtrval + 8 * (i / 4))) (16 * (i % 4) + 15) (16 * (i % 4)))

/-- Sets a counter's visible value. -/
def setCtr (s : State) (c i : Nat) (v : BitVec 16) : State :=
  setF s (coreReg c (oCoreCtrval + 8 * (i / 4))) (16 * (i % 4) + 15) (16 * (i % 4)) v.toNat

/-- An update of a counter in this cycle: summed modulo 2^16, visible from the next cycle (R53). -/
def ctrBump (s : State) (c i : Nat) (d : Int) : State :=
  modCore s c fun x => { x with ctrAdd := x.ctrAdd ++ [(i, d)] }

/-! ## Tile store (R84 to R102) -/

/-- Side of an absolute row: false E, true O (R85, R86). -/
def rowSide (row : Nat) : Bool := row / 32 % 2 = 1

/-- The stored bytes of a row, without the combiner. -/
def rdRowRaw (s : State) (c row : Nat) : List Byte := rdBytes s (tileAddr c row 0) 32

/-- The valid bytes of an entry over the bytes below. -/
def overlay : List (Option Byte) → List Byte → List Byte
  | some b :: v, _ :: l => b :: overlay v l
  | none :: v, x :: l => x :: overlay v l
  | _, l => l

/-- A row as the writes made so far leave it, which reads find from the next cycle on: an open combiner entry stands with
its valid bytes over the stored ones (R101). -/
def rowNow (s : State) (c row : Nat) : List Byte :=
  let raw := rdRowRaw s c row
  match (getCore s c).comb.find? fun e => e.row = row with
  | some e => overlay e.bytes raw
  | none => raw

/-- A row that has been written in this cycle, as it stood before (R90). -/
def rowBefore (s : State) (c row : Nat) : Option (List Byte) :=
  if s.clocksOn then ((getCore s c).seen.find? fun e => e.1 == s.cycle && e.2.1 == row).map (·.2.2) else none

/-- A read beat of a row in this cycle: a write of this cycle does not yet show (R90, R101). -/
def rdRow (s : State) (c row : Nat) : List Byte := (rowBefore s c row).getD (rowNow s c row)

/-- Keeps what a row holds before a write of this cycle. -/
def keepRow (s : State) (c row : Nat) : State :=
  if s.clocksOn && (rowBefore s c row).isNone then
    modCore s c fun x => { x with seen := x.seen ++ [(s.cycle, row, rowNow s c row)] }
  else s

/-- Writes the given bytes of a row into the array; `none` leaves a byte. -/
def wrRowRaw (s : State) (c row : Nat) (bytes : List (Option Byte)) : State :=
  (List.range 32).foldl (fun s b => match bytes.getD b none with
    | some v => wrByte s (tileAddr c row b) v
    | none => s) s

/-- Clears the valid bits that a scheduled write overtakes; an entry left with none is freed (R102). -/
def dropValid (es : List CombEntry) (row : Nat) (bytes : List (Option Byte)) : List CombEntry :=
  (es.map fun e => if e.row = row then
    { e with bytes := (e.bytes.zip (bytes ++ List.replicate 32 none)).map fun (o, n) => if n.isSome then none else o } else e).filter
    fun e => e.bytes.any (·.isSome)

/-- A scheduled write of the given bytes of a row (R90, R102), or one that firmware makes in its place (R108). -/
def wrRow (s : State) (c row : Nat) (bytes : List (Option Byte)) : State :=
  modCore (wrRowRaw (keepRow s c row) c row bytes) c fun x => { x with comb := dropValid x.comb row bytes }

/-- A whole row to be written. -/
def wholeRow (l : List Byte) : List (Option Byte) := l.map some

/-- n bytes from byte b of a row, to be written. -/
def partRow (b : Nat) (l : List Byte) : List (Option Byte) :=
  List.replicate b none ++ l.map some ++ List.replicate (32 - b - l.length) none

/-! ## Accumulators (R117 to R123, R144) -/

/-- CORE_ACCb. -/
def accReg (c b : Nat) : Nat := coreReg c (oCoreAcc + 8 * b)

/-- exact mode? -/
def accExact (s : State) (c b : Nat) : Bool := getB s (accReg c b) 12

/-- Window base, signed (R119). -/
def accWb (s : State) (c b : Nat) : Int := signedOf 8 (getF s (accReg c b) 7 0)

/-- A of an exact element. -/
def accA (s : State) (c b e : Nat) : W96 := BitVec.ofNat 96 (rdNat s (accAddr c b e) 12)

/-- nan, pinf, ninf of an exact element. -/
def accSpec (s : State) (c b e : Nat) : Nat := (rdByte s (accAddr c b e + 12)).toNat % 8

/-- The FP32 value of an element in FP32 mode. -/
def accF (s : State) (c b e : Nat) : W32 := BitVec.ofNat 32 (rdNat s (accAddr c b e) 4)

/-- The value an element stands for, special bits first (R119, R129). -/
def accVal (s : State) (c b e : Nat) : FVal :=
  if accExact s c b then
    let sp := accSpec s c b e
    if bitOf sp 0 ∨ (bitOf sp 1 ∧ bitOf sp 2) then .nan
    else if bitOf sp 1 then .inf false
    else if bitOf sp 2 then .inf true
    else exactVal (accA s c b e) (accWb s c b)
  else decodeFp fp32Params (accF s c b e).toNat

/-- The partial an exact element leaves as (R131, R132). -/
def accPartial (s : State) (c b e : Nat) : W96 :=
  if accSpec s c b e ≠ 0 then voidPartial else accA s c b e

/-- Sets an exact element: A and its special bits. -/
def setAccExact (s : State) (c b e : Nat) (a : W96) (sp : Nat) : State :=
  wrBytes s (accAddr c b e) (natLe 12 a.toNat ++ [BitVec.ofNat 8 (sp % 8)])

/-- Sets an element in FP32 mode; bytes 4 to 15 read as zero. -/
def setAccF (s : State) (c b e : Nat) (x : W32) : State :=
  wrBytes s (accAddr c b e) (natLe 4 x.toNat ++ List.replicate 12 0)

/-- Sets flags in CORE_ARITH_FLAGS (sticky, R147). -/
def setArith (s : State) (c : Nat) (f : ArithFlags) : State :=
  setReg s (coreReg c oCoreArithFlags) (getReg s (coreReg c oCoreArithFlags) ||| BitVec.ofNat 64 (flagBits f))

/-! ## Vector tiles (R186) -/

/-- A lane of a vector. -/
def rdLane (s : State) (c u l : Nat) : W32 := BitVec.ofNat 32 (rdNat s (vtileAddr c u l) 4)

/-- Writes a lane. -/
def wrLane (s : State) (c u l : Nat) (x : W32) : State := wrNat s (vtileAddr c u l) 4 x.toNat

end Sys2Proof.Machine
end

