-- ==== Sys2Proof/Machine/Access.lean ====
section
/-! DEFINITION. Machine/Access.lean: masters, access tables and fences as every target checks them (R28, R246, R457 to
R461), denials, access sizes (R578, R579). -/
namespace Sys2Proof.Machine
open Sys2Proof

/-- Class and id of a master (R457). -/
def masterCode : Master → Nat × Nat
  | .compiled t => (1, t)
  | .boot => (2, 0)
  | .app i => (2, i + 1)
  | .host => (3, 0)
  | .group g => (4, g)
  | .remote l => (5, l)
  | .debug => (6, 0)

/-! ## Fences -/

/-- Is a field fenced (R28)? -/
def fieldFenced (s : State) (f : Nat) : Bool := getB s (fieldReg f oFldFenceStatus) 0

/-- Is a cluster fenced, by itself or with its field (R246)? -/
def cluFenced (s : State) (k : Nat) : Bool := fieldFenced s (k / 256) || getB s (cluReg k oCluFenceStatus) 0

/-- Does a place refuse with TARGET_FENCED (R28, R246)? The registers that say what is fenced stay readable. -/
def placeFenced (s : State) : Place → Bool
  | .stacked f _ => fieldFenced s f
  | .core c _ => coreFenced s c
  | .field f o => fieldFenced s f && !(o / 8 * 8 == oFldIdent || o / 8 * 8 == oFldFenceCtl || o / 8 * 8 == oFldFenceStatus || o / 8 * 8 == oFldFenceDrops)
  | .cluster k o => cluFenced s k && !(o / 8 * 8 == oCluFenceCtl || o / 8 * 8 == oCluFenceStatus)
  | .steward k _ => cluFenced s k
  | _ => false

/-! ## Access tables (R458, R459) -/

/-- The windows 0 to 15 of a class in a table whose first window stands at `base`: window value and permission value. -/
def windows (s : State) (base cls : Nat) : List (Nat × Nat) :=
  (List.range 16).map fun w =>
    let a := base + 0x100 * (cls - 1) + 0x10 * w
    ((getReg s a).toNat, (getReg s (a + 8)).toNat)

/-- A permission grants an id a read or a write. -/
def permits (perm id : Nat) (write : Bool) : Bool :=
  bitOf perm 63 && bitOf perm id && bitOf perm (if write then 61 else 62)

/-- A gateway window holds bytes lo to hi of its field's memory. -/
def gwHolds (win lo hi : Nat) : Bool := decide (bitsOf win 43 22 * 4096 ≤ lo) && decide (hi ≤ bitsOf win 21 0 * 4096 + 4095)

/-- A core window holds bytes lo to hi of the core window of in-field core `i`. -/
def coreHolds (win i lo hi : Nat) : Bool :=
  decide (bitsOf win 37 24 ≤ i) && decide (i ≤ bitsOf win 23 10) && decide (bitsOf win 9 5 ≤ lo / 4096) && decide (hi / 4096 ≤ bitsOf win 4 0)

/-- A register window holds addresses lo to hi. -/
def regHolds (win lo hi : Nat) : Bool :=
  decide (0x300000000000 + bitsOf win 63 32 * 4096 ≤ lo) && decide (hi ≤ 0x300000000000 + bitsOf win 31 0 * 4096 + 4095)

/-- Does one window of the target's table grant the access (R459)? Windows of class 1 of the register table grant nothing
(R462). -/
def tableGrants (s : State) (cls id : Nat) (write : Bool) (p : Place) (a len : Nat) : Bool :=
  match p with
  | .stacked f o => (windows s (fieldReg f oSvcGwwin) cls).any fun (w, q) => permits q id write && gwHolds w o (o + len - 1)
  | .core c o => (windows s (fieldReg (fieldOfCore c) oSvcCorewin) cls).any fun (w, q) =>
      permits q id write && coreHolds w (128 * cyOf c + cxOf c) o (o + len - 1)
  | _ => cls != 1 && (windows s (modReg oSvcRegwin) cls).any fun (w, q) => permits q id write && regHolds w a (a + len - 1)

/-- Does the target let the master in? The boot core is exempt from every table (R458), and the host reaches
HST_BOOT_STATUS and HST_RESET_CTL whatever the boot stage (R534). -/
def granted (s : State) (m : Master) (write : Bool) (p : Place) (a len : Nat) : Bool :=
  match m with
  | .boot => true
  | .host => decide (a = modReg oHstBootStatus) || decide (a = modReg oHstResetCtl) || tableGrants s 3 0 write p a len
  | _ => tableGrants s (masterCode m).1 (masterCode m).2 write p a len

/-! ## Denials (R461, R578) -/

/-- The registers that record the denials of a target: of the field's gateway, of its core windows, of the registers. -/
def denyRegs : Place → Nat × Nat
  | .stacked f _ => (fieldReg f oSvcGwdeny, fieldReg f oSvcGwdenyCount)
  | .core c _ => (fieldReg (fieldOfCore c) oSvcCoredeny, fieldReg (fieldOfCore c) oSvcCoredenyCount)
  | _ => (modReg oSvcRegdeny, modReg oSvcRegdenyCount)

/-- Records and counts a denial; the first record stands until its valid bit is cleared. -/
def denyAt (s : State) (r : Nat × Nat) (m : Master) (write : Bool) (a : Nat) : State :=
  let s := addF s r.2 63 0 1
  if getB s r.1 63 then s
  else setReg s r.1 (BitVec.ofNat 64 (2 ^ 63 + write.toNat * 2 ^ 62 + (masterCode m).1 * 2 ^ 58 + (masterCode m).2 * 2 ^ 52 + a % 2 ^ 48))

/-- A denial by a target's table. -/
def deny (s : State) (p : Place) (m : Master) (write : Bool) (a : Nat) : State := denyAt s (denyRegs p) m write a

/-- A denial outside every block or of a wrong size: recorded at the register table, whatever the address (R578, R579). -/
def denyOutside (s : State) (m : Master) (write : Bool) (a : Nat) : State :=
  denyAt s (modReg oSvcRegdeny, modReg oSvcRegdenyCount) m write a

/-- Checks 1 and 2 of R460 at a place. -/
def checkAt (s : State) (m : Master) (write : Bool) (p : Place) (a len : Nat) : Status :=
  if placeFenced s p then .targetFenced else if granted s m write p a len then .ok else .accessDenied

/-! ## Sizes (R579) -/

/-- The regions of R579. -/
inductive Region where
  | stacked | tile | imem | acc | vtile | steward | reg | mailbox
  deriving DecidableEq, Repr

/-- The region of a place; none in the gaps of a core window. -/
def regionOf : Place → Option Region
  | .stacked .. => some .stacked
  | .core _ o =>
    if o < 0xC000 then some .tile
    else if o < 0xE000 then some .imem
    else if 0x10000 ≤ o ∧ o < 0x14000 then some .acc
    else if 0x14000 ≤ o ∧ o < 0x15000 then some .vtile
    else if 0x18000 ≤ o then some .reg
    else none
  | .steward .. => some .steward
  | .mailbox .. => some .mailbox
  | _ => some .reg

/-- Sizes that a region takes. -/
def sizeOk (r : Region) (len : Nat) : Bool := match r with
  | .stacked => decide (1 ≤ len) && decide (len ≤ 4096)
  | .tile => [1, 2, 4, 8, 16, 32].contains len
  | .imem => [32, 64].contains len
  | .acc => [4, 8, 16].contains len
  | .vtile => [4, 8, 16, 32, 64].contains len
  | .steward => [4, 8].contains len
  | .reg => len == 8
  | .mailbox => [4, 8, 16, 32, 64, 128, 256].contains len

/-- Largest power of two that divides a size of at most 4,096 bytes. -/
def sizeAlign (len : Nat) : Nat := ((List.range 13).map (2 ^ ·)).foldl (fun b p => if len % p = 0 then p else b) 1

/-- A naturally aligned access of an allowed size (R579). -/
def accessShape (r : Region) (a len : Nat) : Bool := sizeOk r len && a % sizeAlign len == 0

/-- The whole admission of an access by a master: fences, tables, then block and shape (R460, R578, R579). The state
records a denial. -/
def screenAccess (s : State) (m : Master) (write : Bool) (a len : Nat) : Status × State :=
  match decodeAddr a with
  | none => (.accessDenied, denyOutside s m write a)
  | some p =>
    match checkAt s m write p a len with
    | .ok => match regionOf p with
      | none => (.accessDenied, denyOutside s m write a)
      | some r => if accessShape r a len then (.ok, s) else (.accessDenied, denyOutside s m write a)
    | .accessDenied => (.accessDenied, deny s p m write a)
    | st => (st, s)

/-! ## Refusal records (R535, R538) -/

/-- The fault name of a refusal. -/
def refusalName : Status → Option FaultName
  | .accessDenied => some .accessDenied
  | .targetFenced => some .targetFenced
  | .configRejected => some .configRejected
  | .storeLocked => some .storeLocked
  | _ => none

/-- The field whose collector takes a target's record; the others go to Carnelian. -/
def fieldOfAddr (a : Nat) : Option Nat := match decodeAddr a with
  | some (.stacked f _) => some f
  | some (.core c _) => some (fieldOfCore c)
  | some (.field f _) => some f
  | some (.cluster k _) => some (k / 256)
  | some (.steward k _) => some (k / 256)
  | _ => none

/-- The target of an address, among those of its field: gateway, core windows, registers (R458). -/
def targetOf (a : Nat) : Nat := match decodeAddr a with
  | some (.stacked ..) => 0
  | some (.core ..) => 1
  | _ => 2

/-- A refusal's record (R535, R538), and its answer; another status is only answered. A read that meets a fence returns
zeros with its status (R28); a fenced gateway counts it (R331). -/
def refuse (s : State) (m : Master) (write : Bool) (a len : Nat) (st : Status) : State :=
  let s := match refusalName st with
    | none => s
    | some n =>
      let loc := (masterCode m).1 * 2 ^ 16 + (masterCode m).2
      let r : FaultRec := { carRec s 7 loc n false false (write.toNat * 2 ^ 58 + a % 2 ^ 48) with source := targetOf a }
      match fieldOfAddr a with
      | some f => queueFault s f { r with time := getReg s (fieldReg f oFldQtzTime) }
      | none => queueCar s r
  let s := match decodeAddr a, st with
    | some (.stacked f _), .targetFenced => addF s (fieldReg f oGwFenceCount) 63 0 1
    | _, _ => s
  answer s st (if st = .targetFenced ∧ write = false then List.replicate len 0#8 else [])

/-- A master's requests reach the module: an unpowered module answers nothing, and no request of the host comes while its port
is in reset or its link is down (R592). -/
def reaches (s : State) (m : Master) : Bool := s.boot.power && !(m == .host && (s.host.perst || !s.host.link))

/-- An access that is admitted has its effect; any other is answered with its status and changes nothing else.
A request that does not reach the module has none. -/
def withAccess (m : Master) (write : Bool) (a len : Nat) (s : State) (k : State → State) : State :=
  if !reaches s m then s
  else match screenAccess s m write a len with
  | (.ok, s) => k s
  | (st, s) => refuse s m write a len st

/-- A register write by a master: admitted, then made or refused by the register (R15, R460). -/
def writeAccess (m : Master) (a : Nat) (s : State) (k : State → Status × State) : State :=
  withAccess m true a 8 s fun s => let r := k s; refuse r.2 m true a 8 r.1

end Sys2Proof.Machine
end

