-- ==== Sys2Proof/Machine/Digest.lean ====
section
/-! DEFINITION. Machine/Digest.lean: write hashes, cluster digests and the finer digests of a capture (R445 to R451). -/
namespace Sys2Proof.Machine
open Sys2Proof

/-- Later bytes over earlier ones. -/
def mergeBytes (old new : List (Option Byte)) : List (Option Byte) :=
  (old.zip new).map fun (o, n) => if n.isSome then n else o

/-- The byte mask of a write. -/
def byteMask (bytes : List (Option Byte)) : Nat :=
  (bytes.zip (List.range 32)).foldl (fun m (b, i) => if b.isSome then m + 2 ^ i else m) 0

/-- write_hash() of R446; bytes outside the mask read as zero. -/
def writeHash (core row : Nat) (bytes : List (Option Byte)) : Nat :=
  let w (k : Nat) : W64 := BitVec.ofNat 64 (leNat (((bytes.drop (8 * k)).take 8).map (·.getD 0#8)))
  let h0 := mix64 (BitVec.ofNat 64 (byteMask bytes * 2 ^ 32 ||| row * 2 ^ 20 ||| core))
  let h1 := mix64 (h0 ^^^ 0x5457494E#64)
  let (h0, h1) := (List.range 4).foldl (fun (h : W64 × W64) k => (mix64 (h.1 ^^^ w k), mix64 (h.2 + w k))) (h0, h1)
  h1.toNat * 2 ^ 64 + h0.toNat

/-- Adds to entry k of a list of 128-bit sums that is 0 beyond its end. -/
def digAdd (l : List Nat) (k h : Nat) : List Nat :=
  let l := l ++ List.replicate (k + 1 - l.length) 0
  l.set k ((l.getD k 0 + h) % 2 ^ 128)

/-- Window of an issue index (R450), if it is one of the 256. -/
def fineWindow (s : State) (idx : Nat) : Option Nat :=
  let t := modReg oModTwinCtl
  let w := idx / (4096 * 2 ^ getF s t 15 12)
  if getF s t 35 20 ≤ w ∧ w < getF s t 35 20 + 256 then some (w - getF s t 35 20) else none

/-- Where a digested write of a core counts in the capture buffer (R450); `idx` is none for a background write. -/
def fineEntry (s : State) (c : Nat) (idx : Option Nat) : Option Nat :=
  let t := modReg oModTwinCtl
  let place (unit : Nat) : Option Nat := match idx with
    | some i => (fineWindow s i).map fun w => 257 * unit + w
    | none => some (257 * unit + 256)
  if getF s t 3 2 = 1 then place (cluInField c)
  else if getF s t 3 2 = 2 ∧ getF s t 43 38 = fieldOfCore c ∧ getF s t 51 44 = cluInField c then place (localOf c)
  else none

/-- The entry of the write log (R451), for the captured core and the window win0. -/
def logEntry (s : State) (c row : Nat) (bytes : List (Option Byte)) (src : Nat) (tag : BitVec 20) (idx : Option Nat) (h : Nat) :
    Option (List Byte) :=
  let t := modReg oModTwinCtl
  let here := getF s t 3 2 == 3 && getF s t 43 38 == fieldOfCore c && getF s t 51 44 == cluInField c && getF s t 57 52 == localOf c
  let inWin := match idx with | some i => decide (i / 4096 = getF s t 35 20) | none => true
  if here && inWin then
    let i := idx.getD 0xFFFFFFFF
    let same := (getField s (fieldOfCore c)).fineLog.filter fun e => leNat (e.take 4) == i && (e.getD 4 0).toNat == src
    let beat := if idx.isSome then same.length else 0
    some (natLe 4 i ++ [BitVec.ofNat 8 src, BitVec.ofNat 8 beat] ++ natLe 2 row ++ natLe 4 (byteMask bytes) ++ natLe 4 tag.toNat ++
      natLe 8 (h % 2 ^ 64) ++ natLe 8 0)
  else none

/-- Counts a digested write, `ahead` steps past the current one, in its cluster's digest and in a capture that runs
(R445, R447, R450, R451). Sources: 1 matrix, 2 vector, 3 move, 4 fill, 5 message, 6 combining, 7 steward. -/
def digestWrite (s : State) (c row : Nat) (bytes : List (Option Byte)) (ahead src : Nat) (tag : BitVec 20) (idx : Option Nat) : State :=
  let t := modReg oModTwinCtl
  if !getB s t 0 && getF s t 3 2 == 0 then s
  else
    let h := writeHash c row bytes
    let s := if getB s t 0 then modClu s (cluOf c) fun y => { y with digs := digAdd y.digs ahead h } else s
    if getF s t 3 2 = 0 ∨ (coreStep s c).toNat + ahead ≠ (getReg s (modReg oModTwinFineStep)).toNat then s
    else
      let f := fieldOfCore c
      let s := match fineEntry s c idx with
        | some e => modField s f fun x => { x with fine := smPut 0 e ((smGet 0 e x.fine + h) % 2 ^ 128) x.fine }
        | none => s
      match logEntry s c row bytes src tag idx h with
      | some l =>
        if 65536 ≤ (getField s f).fineLog.length then setF s (modReg oModTwinStatus) 33 33 1
        else modField s f fun x => { x with fineLog := x.fineLog ++ [l] }
      | none => s

end Sys2Proof.Machine
end

