-- ==== Sys2Proof/Machine/Operands.lean ====
section
/-! DEFINITION. Machine/Operands.lean: every operand form of the engines: tile-store elements and beats (R87, R89),
vector descriptors and positions (R188 to R193), masks (R195), matrix operands (R151, R161). -/
namespace Sys2Proof.Machine
open Sys2Proof

/-! ## Accesses of a command, with the beats it lost (R96) -/

/-- Has the command lost its access of this direction to this absolute row, in cycle `cy` where one is given? A column
beat has the row that R96 records for it. -/
def lostAcc (x : CoreSt) (k : Cmd) (write : Bool) (row : Nat) (cy : Option Nat) : Bool :=
  x.sched.any fun a => a.lost && a.write == write && a.eng == k.eng && a.tag == k.tag && a.row == row &&
    (cy == none || cy == some a.cy)

/-- The bytes a command has taken of an operand and the cycle of the read: of several reads the one in cycle `cy` where
there is one, otherwise the first. -/
def gotOf (k : Cmd) (w : Taken) (cy : Option Nat := none) : Option (List Byte × Nat) :=
  match k.got.find? fun g => g.1 == w && cy == some g.2.2 with
  | some g => some g.2
  | none => (k.got.find? (·.1 == w)).map (·.2)

/-- A beat read by a command: 32 zero bytes where it was lost (R96). `row` is the row recorded for the beat, `now` what
stands there now, for a beat not yet taken. -/
def cmdBeat (s : State) (c : Nat) (k : Cmd) (w : Taken) (row : Nat) (now : List Byte) (cy : Option Nat) : List Byte :=
  let g := gotOf k w cy
  if lostAcc (getCore s c) k false row (g.map (·.2)) then List.replicate 32 0 else (g.map (·.1)).getD now

/-- Cycle i cycles after a command's begin. -/
def cmdCycle (k : Cmd) (i : Nat) : Option Nat := k.begun.map (· + i)

/-- The 32 bytes of the byte-column beat of a column, in the tile whose first row is given (R89). -/
def colBytes (s : State) (c r col : Nat) : List Byte := (List.range 32).map fun i => (rdRow s c (r + i)).getD col 0

/-- The 32 bytes of an element-column beat of width 2, column `col`, from the tile row of its phase on (R89). -/
def halfBytes (s : State) (c r col : Nat) : List Byte :=
  ((List.range 16).map fun q =>
    let row := rdRow s c (r + 2 * q)
    [row.getD (2 * col) 0, row.getD (2 * col + 1) 0]).flatten

/-- A row read by a command: 32 zero bytes where the read was lost (R96). -/
def cmdRow (s : State) (c : Nat) (k : Cmd) (row : Nat) (cy : Option Nat := none) : List Byte :=
  cmdBeat s c k (.row row) row (rdRow s c row) cy

/-- A lane of a vector tile read by a command as an operand of its vector v. -/
def cmdLane (s : State) (c : Nat) (k : Cmd) (v u l : Nat) : W32 :=
  match gotOf k (.vec u) (cmdCycle k v) with
  | some b => BitVec.ofNat 32 (leNat ((b.1.drop (4 * l)).take 4))
  | none => rdLane s c u l

/-- The source code of an engine in the write log (R451). -/
def engSource : EngineId → Nat
  | .matrix => 1 | .vector => 2 | _ => 3

/-- A row write of a command, a digested write (R445): nothing changes where the write, in cycle `cy` where one is given,
was lost (R96). -/
def cmdWrite (s : State) (c : Nat) (k : Cmd) (row : Nat) (bytes : List (Option Byte)) (cy : Option Nat := none) : State :=
  if lostAcc (getCore s c) k true row cy then s
  else digestWrite (wrRow s c row bytes) c row bytes 0 (engSource k.eng) k.tag (some k.idx)

/-! ## Elements in rows (R87) -/

/-- Element k of a row of bytes in a format of at most 32 bits (R87). -/
def elemOf (f : Fmt) (row : List Byte) (k : Nat) : Nat :=
  match fmtBits f with
  | 4 => (row.getD (k / 2) 0).toNat / (if k % 2 = 0 then 1 else 16) % 16
  | 6 => leNat (row.take 24) / 2 ^ (6 * k) % 64
  | 16 => leNat [row.getD (2 * k) 0, row.getD (2 * k + 1) 0]
  | 32 => leNat [row.getD (4 * k) 0, row.getD (4 * k + 1) 0, row.getD (4 * k + 2) 0, row.getD (4 * k + 3) 0]
  | _ => (row.getD k 0).toNat

/-- The 96-bit partial i (0 to 15) of six rows (R87, R131). -/
def partialOf (rows : List (List Byte)) (i : Nat) : W96 :=
  let run := (rows.drop (3 * (i / 8))).take 3
  BitVec.ofNat 96 (leNat ((run.flatten.drop (12 * (i % 8))).take 12))

/-! ## Vector descriptors (R188, R217) -/

/-- A decoded CORE_VDESCn. -/
structure VDesc where
  kind : Nat
  fmt : Nat
  lstride : Bool
  elem : Nat
  part : Nat
  vstride : Int
  base : Nat
  deriving DecidableEq, Repr

/-- Decodes the fields of CORE_VDESCn (R217). -/
def vdescOf (v : W64) : VDesc :=
  let x := v.toNat
  { kind := bitsOf x 63 62, fmt := bitsOf x 61 58, lstride := bitOf x 57, elem := bitsOf x 56 50, part := bitsOf x 49 48
    vstride := signedOf 8 (bitsOf x 47 40), base := bitsOf x 34 24 }

/-- Descriptor n of a core. -/
def vdesc (s : State) (c n : Nat) : VDesc := vdescOf (getReg s (coreReg c (oCoreVdesc + 8 * n)))

/-- Position of vector v (R188). -/
def vpos (d : VDesc) (v : Nat) : Int := d.base + v * d.vstride

/-- The format of a descriptor; INT32W elements lie in rows as INT32 does. -/
def vfmt (d : VDesc) : Fmt := (fmtOfCode d.fmt).getD .fp32

/-- Row offset and first byte of element e of a tile-store position, and its length (R189). -/
def elemPlace (f : Fmt) (e : Nat) : Nat × Nat × Nat :=
  match fmtBits f with
  | 8 => (0, e, 1)
  | 16 => (0, 2 * e, 2)
  | _ => (32 * (e / 8), 4 * (e % 8), 4)

/-- The element that lane l takes: element l of the part, or the broadcast element (R188). -/
def laneElem (d : VDesc) (l : Nat) : Nat :=
  if d.lstride then (if fmtBits (vfmt d) = 8 then 16 * d.part + l else l) else d.elem

/-- The raw element that lane l of vector v reads at a tile-store position (absolute row x). -/
def tileElem (s : State) (c : Nat) (k : Cmd) (d : VDesc) (v x l : Nat) : Nat :=
  let (ro, b, n) := elemPlace (vfmt d) (laneElem d l)
  leNat (((cmdRow s c k (x + ro) (cmdCycle k v)).drop b).take n)

/-- The window flags of a block read by a conversion (R147); those of an FP32-mode block count for nothing (R121). -/
def blockFlags (s : State) (c b : Nat) : ArithFlags :=
  { winLow := accExact s c b && getB s (accReg c b) 14, winHigh := accExact s c b && getB s (accReg c b) 15 }

/-- The value that lane l of a source has, before any conversion (R188, R199). -/
def srcVal (s : State) (c : Nat) (k : Cmd) (d : VDesc) (v l : Nat) : FVal :=
  let p := (vpos d v).toNat
  match d.kind with
  | 0 =>
    let x := cmdLane s c k v p (if d.lstride then l else d.elem)
    if d.fmt = 8 then dec32 x else intVal x.toInt
  | 1 => accVal s c p (if d.lstride then l else d.elem)
  | _ => decodeElem (vfmt d) (tileElem s c k d v (k.tbase + p) l)

/-- A source lane as the opcode's lane type, with the flags of its conversion (R193). -/
def srcLane (s : State) (c : Nat) (k : Cmd) (ty : LaneTy) (d : VDesc) (v l : Nat) : W32 × ArithFlags :=
  let p := (vpos d v).toNat
  match d.kind with
  | 0 => (cmdLane s c k v p (if d.lstride then l else d.elem), flags0)
  | 1 =>
    let o := enc32 (accVal s c p (if d.lstride then l else d.elem)) .rne 0
    (o.1, o.2)
  | _ =>
    let x := tileElem s c k d v (k.tbase + p) l
    match ty with
    | .fp => enc32 (decodeElem (vfmt d) x) .rne 0
    | .int => (if fmtBits (vfmt d) = 8 then BitVec.ofInt 32 (signedOf 8 x) else BitVec.ofNat 32 x, flags0)
    | .raw => (BitVec.ofNat 32 x, flags0)

/-- The immediate source b (R192): imm16 × 2^16 for a float opcode, imm16 sign-extended otherwise (DEDUCED for the raw
opcodes, which R192 does not name). -/
def immLane (ty : LaneTy) (imm : BitVec 16) : W32 :=
  match ty with
  | .fp => imm.zeroExtend 32 <<< 16
  | _ => imm.signExtend 32

/-- Is lane l of vector v active (R195)? -/
def laneActive (s : State) (c : Nat) (k : Cmd) (x : VxCmd) (v l : Nat) : Bool :=
  if x.msk = 0 then true
  else
    let d := vdesc s c x.dm
    decide (cmdLane s c k v (vpos d v).toNat (if d.lstride then l else d.elem) ≠ 0#32)

/-- The flags that reading a source's block sets, whichever lanes are active (R193). -/
def srcBlockFlags (s : State) (c : Nat) (d : VDesc) (v : Nat) : ArithFlags :=
  if d.kind = 1 then blockFlags s c (vpos d v).toNat else flags0

/-! ## Destinations (R188, R194) -/

/-- A lane result encoded for a tile-store destination, with the flags of the final conversion (R194, R137). -/
def encLane (f : Fmt) (ty : LaneTy) (x : W32) (rnd : Rnd) (sat : Bool) (r : Nat) : Nat × ArithFlags :=
  match ty with
  | .fp => if f = .fp32 then (x.toNat, flags0) else encodeVal f (dec32 x) rnd sat r
  | .int =>
    if f = .int8 then
      let y := x.toInt
      if y > 127 then (127, { overflow := true }) else if y < -128 then (128, { overflow := true })
      else (patternOf 8 y, flags0)
    else (x.toNat, flags0)
  | .raw => (x.toNat, flags0)

/-- Cycles from a vector command's begin to the write of its first vector (R202 to R204). -/
def vFirstWrite (o : VOp) : Nat :=
  match o with
  | .vcvtp => 11
  | .spec .. => 14
  | _ => 6

/-- Cycles from the write of one vector to that of the next. -/
def vPerWrite (o : VOp) : Nat := if o = .vcvtp then 6 else 1

/-- Cycle in which a vector command writes its vector v. -/
def vecWriteCycle (k : Cmd) (v : Nat) : Option Nat :=
  match decodeVector k.slot with
  | some (some y) => cmdCycle k (vFirstWrite y.op + vPerWrite y.op * v)
  | _ => none

/-- Writes elements of one vector of a destination, given as lane and value: a vector tile's lanes take the 32 bits, tile
store elements their bytes, each row in one beat. -/
def putElems (s : State) (c : Nat) (k : Cmd) (d : VDesc) (v : Nat) (es : List (Nat × Nat)) : State :=
  let p := (vpos d v).toNat
  if d.kind = 0 then es.foldl (fun s (l, x) => wrLane s c p (if d.lstride then l else d.elem) (BitVec.ofNat 32 x)) s
  else
    let parts := es.map fun (l, x) =>
      let (ro, b, n) := elemPlace (vfmt d) (laneElem d l)
      (ro, partRow b (natLe n x))
    [0, 32].foldl (fun s i =>
      let row := (parts.filter (·.1 == i)).foldl (fun acc q => mergeBytes acc q.2) (List.replicate 32 none)
      if row.any (·.isSome) then cmdWrite s c k (k.tbase + p + i) row (vecWriteCycle k v) else s) s

/-- Does the destination keep the 32 bits of the lane (FP32, INT32 or a vector tile), so that no narrowing follows? -/
def wideDst (d : VDesc) : Bool := d.kind == 0 || fmtBits (vfmt d) == 32

/-- The draw of lane l of vector v of a command (R134), with the seed in effect at its issue (R149). -/
def cmdDraw (c : Nat) (k : Cmd) (v l : Nat) : Nat :=
  draw k.seed k.step c (k.rc + BitVec.ofNat 32 (16 * v + l))

/-! ## Matrix operands (R89, R151, R161) -/

/-- A byte-column beat of a command (R89). -/
def colBeat (s : State) (c : Nat) (k : Cmd) (tile col : Nat) : List Byte :=
  cmdBeat s c k (.col (32 * tile) col) (32 * tile) (colBytes s c (32 * tile) col) none

/-- An element-column beat of width 2 of a command, column j, phase p (R89). -/
def halfBeat (s : State) (c : Nat) (k : Cmd) (tile j p : Nat) : List Byte :=
  cmdBeat s c k (.half (32 * tile + p) j) (32 * tile + p) (halfBytes s c (32 * tile + p) j) none

/-- The bytes that each array receives at step t of a stream, array 0 first (R150, R161). `row` is absolute. -/
def aBytes (s : State) (c : Nat) (k : Cmd) (g : OpGroup) (row t : Nat) (tr : Bool) : List Byte × List Byte :=
  match tr, g with
  | false, .fp8 | false, .int8 | false, .fp4 => let b := cmdRow s c k (row + t); (b.take 16, b.drop 16)
  | false, _ => (cmdRow s c k (row + t), cmdRow s c k (row + 32 + t))
  | true, .half =>
    let u := row % 32 + t
    (halfBeat s c k (row / 32) (u / 2) (u % 2), halfBeat s c k (row / 32 + 1) (u / 2) (u % 2))
  | true, _ => let b := colBeat s c k (row / 32) (row % 32 + t); (b.take 16, b.drop 16)

end Sys2Proof.Machine
end

