-- ==== Sys2Proof/Machine/Matrix.lean ====
section
/-! DEFINITION. Machine/Matrix.lean: what the twin arrays compute (R114 to R122, R140 to R144, R150 to R164): weight
latch and shadow, scale buffer, streams into accumulator blocks, clearing, draining, serial products. -/
namespace Sys2Proof.Machine
open Sys2Proof

/-! ## Latch, shadow and scale buffer (R155, R156, R184) -/

/-- Kind code of a serial container block (R184). -/
def serialKind : Nat := 0xF

/-- The code of an operand format (R111). -/
def fmtCode : Fmt → Nat
  | .e4m3 => 0 | .e5m2 => 1 | .int8 => 2 | .e3m2 => 3 | .e2m3 => 4 | .e2m1 => 5 | .bf16 => 6 | .fp16 => 7
  | .fp32 => 8 | .int32 => 9 | .int32w => 10 | .exact => 11

/-- Writes 32 bytes held in four registers from an offset on. -/
def setRegBytes (s : State) (c off : Nat) (l : List Byte) : State :=
  (List.range 4).foldl (fun s k => setReg s (coreReg c (off + 8 * k)) (BitVec.ofNat 64 (leNat ((l.drop (8 * k)).take 8)))) s

/-- Reads 32 bytes held in four registers. -/
def regBytes (s : State) (c off : Nat) : List Byte :=
  ((List.range 4).map fun k => natLe 8 (getReg s (coreReg c (off + 8 * k))).toNat).flatten

/-- Loads the shadow: data, kind, scale, sequence number (R155). -/
def setShadow (s : State) (c : Nat) (data : List Byte) (kind scale seq : Nat) : State :=
  let s := setRegBytes s c oCoreWlShd data
  let s := setF s (coreReg c oCoreMxScales) 7 0 scale
  let s := setF s (coreReg c oCoreMxStatus) 27 24 kind
  setF s (coreReg c oCoreMxStatus) 35 32 seq

/-- Copies the shadow into the current latch; the shadow keeps its contents (R155). -/
def swapLatch (s : State) (c : Nat) : State :=
  let s := setRegBytes s c oCoreWlCur (regBytes s c oCoreWlShd)
  let s := setF s (coreReg c oCoreMxScales) 15 8 (getF s (coreReg c oCoreMxScales) 7 0)
  setF s (coreReg c oCoreMxStatus) 31 28 (getF s (coreReg c oCoreMxStatus) 27 24)

/-- Entry e of array a's half of the scale buffer (R156). -/
def aScale (s : State) (c a e : Nat) : Nat :=
  getF s (coreReg c (oCoreMxAscale + 8 * (4 * a + e / 8))) (8 * (e % 8) + 7) (8 * (e % 8))

/-- Places a block on the conveyor in the core's shadow-load cycle; a block standing in the register then is dropped
and counted (R172, R175). -/
def placeConveyor (s : State) (c : Nat) (blk : ConvBlk) : State :=
  let s := if (getCore s c).conv.isSome then addF s (coreReg c oCoreConveyor) 15 0 1 else s
  let s := addF s (coreReg c oCoreConveyor) 31 16 1
  modCore s c fun x => { x with conv := none, convOut := some (s.cycle, blk) }

/-- WLOAD of kinds 0b00 and 0b11: the shadow is loaded, and with reach > 0 the block goes onto the conveyor (R159, R172). -/
def wloadBlock (s : State) (c : Nat) (data : List Byte) (kind scale reach seq : Nat) : State :=
  let s := setShadow s c data kind scale seq
  if reach = 0 then s
  else placeConveyor s c ⟨BitVec.ofNat 256 (leNat data), BitVec.ofNat 8 scale, kind, seq, reach⟩

/-- Kind 0b00 (R159). -/
def wloadEffect (s : State) (c : Nat) (k : Cmd) (f : Fmt) (src : Nat) (half : Bool) (scRow scIdx reach seq : Nat) : State :=
  let row := cmdRow s c k (k.tbase + src) (cmdCycle k 0)
  let small := fmtBits f = 8 ∨ f = .e2m1
  -- R155 leaves what a shorter block leaves in the shadow's other bytes, and a scale where none is loaded: 0 (log 118)
  let data := if small then (row.drop (if half then 16 else 0)).take 16 ++ List.replicate 16 0
    else if fmtBits f = 6 then row.take 24 ++ List.replicate 8 0 else row
  let scale := if isMx f then ((cmdRow s c k (k.tbase + scRow) (cmdCycle k 1)).getD scIdx 0).toNat else 0
  wloadBlock s c data (fmtCode f) scale reach seq

/-- Kind 0b10, array a: a row of A scales, src_row for array 0 and sc_row for array 1, read one cycle apart (R159, R168). -/
def wloadScalesOne (s : State) (c : Nat) (k : Cmd) (row a : Nat) : State :=
  setRegBytes s c (oCoreMxAscale + 32 * a) (cmdRow s c k (k.tbase + row) (cmdCycle k a))

/-! ## Adding products into a block (R117 to R122) -/

/-- Adds one product to an exact element: A, special bits, and whether it left the window low or high (R120 to R122). -/
def addProduct (wbase : Int) (st : W96 × Nat × Bool × Bool) (p : FVal) : W96 × Nat × Bool × Bool :=
  let (a, sp, lo, hi) := st
  match p with
  | .nan => (a, setBitsOf sp 0 0 1, lo, hi)
  | .inf s => (a, if s then setBitsOf sp 2 2 1 else setBitsOf sp 1 1 1, lo, hi)
  | .fin s m e =>
    if m = 0 then st
    else
      let sh : Int := e - (wbase - 32)
      let x : Int := if s then -(m : Int) else m
      let q : Int := if sh ≥ 0 then x * (2 ^ sh.toNat : Nat) else x / ((2 ^ (-sh).toNat : Nat) : Int)
      let low := decide (sh < 0) && decide (m % 2 ^ (-sh).toNat ≠ 0)
      let high := decide (sh ≥ 0 ∧ m * 2 ^ sh.toNat ≥ 2 ^ 71) || decide (sh < 0 ∧ m ≥ 2 ^ 71 * 2 ^ (-sh).toNat)
      (a + BitVec.ofInt 96 q, sp, lo || low, hi || high)

/-- One step's products into element e of a block. Returns the state and the window flags raised. -/
def addElem (s : State) (c b e : Nat) (ps : List FVal) : State × Bool × Bool :=
  if accExact s c b then
    let (a, sp, lo, hi) := ps.foldl (addProduct (accWb s c b)) (accA s c b e, accSpec s c b e, false, false)
    (setAccExact s c b e a sp, lo, hi)
  else
    let o := encodeVal .fp32 (sumVals (decodeFp fp32Params (accF s c b e).toNat :: ps)) .rne false 0
    (setAccF s c b e (BitVec.ofNat 32 o.1), false, false)

/-- The term count grows by n products per element, saturating (R121, R147). -/
def addTerms (s : State) (c b n : Nat) : State :=
  let t := min (getF s (accReg c b) 40 16 + n) 0x1FFFFFF
  let s := setF s (accReg c b) 40 16 t
  if accExact s c b && decide (t > 2 ^ 24) then setF s (accReg c b) 15 15 1 else s

/-- One step into a block: `ps i n` are the products of element (i, n), `cnt` of them per element. -/
def accStep (s : State) (c b cnt : Nat) (ps : Nat → Nat → List FVal) : State :=
  let (s, lo, hi) := (List.range 16).foldl (fun (acc : State × Bool × Bool) e =>
    let (s, lo, hi) := acc
    let (s, l, h) := addElem s c b e (ps (e / 4) (e % 4))
    (s, lo || l, hi || h)) (s, false, false)
  let s := if lo then setF s (accReg c b) 14 14 1 else s
  let s := if hi then setF s (accReg c b) 15 15 1 else s
  addTerms s c b cnt

/-! ## Streams (R150 to R161) -/

/-- The operand formats of a step agree with the latched block (R150, R153). -/
def compatible (af : Fmt) (kind : Nat) : Bool :=
  if kind = serialKind then false
  else
    let g := groupOf af
    let h := groupOf (opFmt kind)
    decide (g = h) || (isMx af && isMx (opFmt kind))

/-- The products of element (i, n): A(i, j) × B(j, n) for every j, with the block scales (R115, R150, R151). -/
def stepProducts (af bf : Fmt) (sa sb : Nat) (abytes bbytes : List Byte) (i n : Nat) : List FVal :=
  let kb := if isMx af then 8 else 4
  (List.range kb).map fun j =>
    let a := decodeElem af (elemOf af abytes (kb * i + j))
    let b := decodeElem bf (elemOf bf bbytes (4 * j + n))
    if isMx af then mulVal (scaleVal a sa) (scaleVal b sb) else mulVal a b

/-- The latch and the scale buffer as a step finds them: what the command took in the cycle in which the step reaches the
arrays (R157), else what stands there. -/
structure Latched where
  kind : Nat
  data : List Byte
  scale : Nat
  ascale : Nat → Nat → Nat

/-- The registers that hold the latch and the scale buffer. -/
def latchRegs (c : Nat) : List Nat :=
  ((List.range 4).map fun i => coreReg c (oCoreWlCur + 8 * i)) ++ ((List.range 8).map fun i => coreReg c (oCoreMxAscale + 8 * i)) ++
    [coreReg c oCoreMxScales, coreReg c oCoreMxStatus]

/-- The latch and the scale buffer in their registers, as bytes. -/
def latchBytes (s : State) (c : Nat) : List Byte := ((latchRegs c).map fun r => natLe 8 (getReg s r).toNat).flatten

/-- What a step reads of the latch. -/
def latchedAt (s : State) (c : Nat) (k : Cmd) (t : Nat) : Latched :=
  let b := match k.got.find? fun g => g.1 == .latch true t || g.1 == .latch false t with
    | some g => g.2.1
    | none => latchBytes s c
  { kind := bitsOf (leNat ((b.drop 104).take 8)) 31 28, data := b.take 32, scale := ((b.drop 96).getD 1 0).toNat
    ascale := fun a e => ((b.drop (32 + 32 * a)).getD e 0).toNat }

/-- One step of both arrays of a stream (R150, R154). -/
def streamStep (s : State) (c : Nat) (k : Cmd) (af : Fmt) (ab src : Nat) (tr : Bool) (sbase t : Nat) : State :=
  let kb := if isMx af then 8 else 4
  let (b0, b1) := aBytes s c k (groupOf af) (k.tbase + src) t tr
  let l := latchedAt s c k t
  let ok := compatible af l.kind
  let ps (a : Nat) (bytes : List Byte) (i n : Nat) : List FVal :=
    if ok then stepProducts af (opFmt l.kind) (l.ascale a ((sbase + t) % 32)) l.scale bytes l.data i n else List.replicate kb .nan
  let s' := accStep s c (ab + t) kb (ps 0 b0)
  let s' := accStep s' c (32 + ab + t) kb (ps 1 b1)
  if ok then s' else setArith s' c { invalid := true }

/-! ## MCLEAR and MDRAIN (R162, R163) -/

/-- Clears one block: mode, window base, flags, term count and elements (R162). -/
def clearBlock (s : State) (c b : Nat) (exact : Bool) (wbv : Nat) : State :=
  wrBytes (setReg s (accReg c b) (BitVec.ofNat 64 (exact.toNat * 2 ^ 12 + wbv % 256))) (accAddr c b 0) (List.replicate 256 0)

/-- MCLEAR. -/
def mclearEffect (s : State) (c blk cnt : Nat) (exact : Bool) (wbv : Nat) : State :=
  (List.range cnt).foldl (fun s i => clearBlock s c (blk + i) exact wbv) s

/-- The bytes a block leaves as (R163, R131, R132). -/
def drainBytes (s : State) (c b : Nat) (exact : Bool) : List Byte :=
  let same := accExact s c b == exact
  ((List.range 16).map fun e =>
    if exact then natLe 12 (if same then accPartial s c b e else voidPartial).toNat
    else natLe 4 (if same then accF s c b e else qnan32).toNat).flatten

/-- Rows that a drained block fills (R163). -/
def drainRows (exact : Bool) : Nat := if exact then 6 else 2

/-- Row i of an MDRAIN: row i mod R of its block i / R. The flags of a block come with its first row; a block of the other
mode is void or NaN, with invalid (R163, R170). -/
def mdrainRow (s : State) (c : Nat) (k : Cmd) (blk : Nat) (exact : Bool) (dst i : Nat) : State :=
  let r := drainRows exact
  let b := blk + i / r
  let s' := if i % r = 0 then setArith s c { blockFlags s c b with invalid := accExact s c b != exact } else s
  cmdWrite s' c k (k.tbase + dst + i) (wholeRow (((drainBytes s c b exact).drop (32 * (i % r))).take 32)) (cmdCycle k (2 + i))

/-! ## MSERIAL (R140, R164) -/

/-- Digits of an operand of w bits: its low w bits extended to 2 × ceil(w / 2) bits, two bits each, the top digit of a
signed operand signed (R140). -/
def digitsOf (w : Nat) (signed : Bool) (x : Nat) : List Int :=
  let n := (w + 1) / 2
  let y := patternOf (2 * n) (if signed then signedOf w x else (x % 2 ^ w : Nat))
  (List.range n).map fun i =>
    let d := y / 4 ^ i % 4
    if signed ∧ i = n - 1 then signedOf 2 d else d

/-- The products of one digit step (i, j) for element (r, n): da × db × 4^(i + j) over the inner index (R140). -/
def serialProducts (wa wbw : Nat) (sa sb : Bool) (abytes bbytes : List Byte) (di dj r n : Nat) : List FVal :=
  (List.range 4).map fun j =>
    let a := (digitsOf wa sa (elemOf .bf16 abytes (4 * r + j))).getD di 0
    let b := (digitsOf wbw sb (elemOf .bf16 bbytes (4 * j + n))).getD dj 0
    .fin (decide (a * b < 0)) (a * b).natAbs (2 * (di + dj : Nat))

/-- Steps of a serial block (R141). -/
def serialSteps (wa wbw : Nat) : Nat := ((wa + 1) / 2) * ((wbw + 1) / 2)

/-- Block q of an MSERIAL: its digit pairs run with i fastest, then j (R140, R164), each a step of its own. -/
def mserialBlock (s : State) (c : Nat) (k : Cmd) (wa wbw : Nat) (sa sb : Bool) (ab src q : Nat) : State :=
  let (b0, b1) := aBytes s c k .serial (k.tbase + src) q false
  let n := (wa + 1) / 2
  (List.range (serialSteps wa wbw)).foldl (fun s t =>
    let l := latchedAt s c k (q * serialSteps wa wbw + t)
    let ok := l.kind = serialKind
    let ps (bytes : List Byte) (r m : Nat) : List FVal :=
      if ok then serialProducts wa wbw sa sb bytes l.data (t % n) (t / n) r m else List.replicate 4 .nan
    let s := accStep s c (ab + q) 4 (ps b0)
    let s := accStep s c (32 + ab + q) 4 (ps b1)
    if ok then s else setArith s c { invalid := true }) s

/-- The matrix command in a slot. -/
def mxOf (slot : Nat) : MxCmd := (decodeMatrix slot).getD .empty

end Sys2Proof.Machine
end

