-- ==== Sys2Proof/Machine/Ranges.lean ====
section
/-! DEFINITION. Machine/Ranges.lean: the ranges that each command reads and writes (R75, R166, R205), the checks of issue
on them (R48, R76, R105, R191), and the legality of a vector command with its descriptors (R198). -/
namespace Sys2Proof.Machine
open Sys2Proof

/-! ## Ranges of the matrix and move commands, tile rows relative to the task base (R75, R166) -/

/-- A tile-store range of n rows from a relative row. -/
def tileR (row n : Nat) : Range := ⟨.tile, row, row + n - 1⟩
/-- A range of accumulator blocks. -/
def accR (b n : Nat) : Range := ⟨.acc, b, b + n - 1⟩

/-- The rows a stream reads (R161, R166). A byte-column beat touches every row of its tile, an element-column beat of
width 2 the rows of its phase (R89): the one beat of a Half stream of one step leaves out one row at the tile's end. -/
def streamReads (g : OpGroup) (src n : Nat) (tr : Bool) : List Range :=
  if tr then
    let t := src / 32 * 32
    if twoSide g then
      let p := if n = 1 then src % 2 else 0
      let rows := if n = 1 then 31 else 32
      [tileR (t + p) rows, tileR (t + 32 + p) rows]
    else [tileR t 32]
  else if twoSide g then [tileR src n, tileR (src + 32) n] else [tileR src n]

/-- Reads and writes of a matrix command (R166). -/
def mxRanges : MxCmd → List Range × List Range
  | .empty => ([], [])
  | .wload f src _ sc _ _ _ => (tileR src 1 :: (if isMx f then [tileR sc 1] else []), [])
  | .wloadConveyor _ => ([], [])
  | .wloadScales src sc => ([tileR src 1, tileR sc 1], [])
  | .wloadSerial src _ _ => ([tileR src 1], [])
  | .mstream f n ab src tr _ _ => (streamReads (groupOf f) src n tr, [accR ab n, accR (32 + ab) n])
  | .mclear b n _ _ => ([], [accR b n])
  | .mdrain b n ex dst => ([accR b n], [tileR dst ((if ex then 6 else 2) * n)])
  | .mserial _ _ _ _ n ab src _ => (streamReads .serial src n false, [accR ab n, accR (32 + ab) n])

/-- Index rows of a command of n granules (R317). -/
def idxRows (n : Nat) : Nat := (n + 7) / 8

/-- Reads and writes of an execute-side move command (R75). -/
def mvRanges : MvCmd → List Range × List Range
  | .tcopy s d n _ => ([tileR s (n + 1)], [tileR d (n + 1)])
  | .mput s _ g _ => ([tileR s (2 * (g + 1))], [])
  | .mscatter s _ i n => ([tileR s (2 * (n + 1)), tileR i (idxRows (n + 1))], [])
  | .msend s n _ => ([tileR s (n + 1)], [])
  | _ => ([], [])

/-! ## Ranges of the vector commands (R189, R205) -/

/-- Smallest and largest position over vectors 0 to n − 1. -/
def posSpan (d : VDesc) (n : Nat) : Int × Int :=
  let a := vpos d 0
  let b := vpos d (n - 1)
  if a ≤ b then (a, b) else (b, a)

/-- Row offsets that a tile-store position of a format touches (R189). -/
def furtherRows (f : Fmt) : List (Nat × Nat) :=
  match f with
  | .exact => [(0, 5)]
  | _ => if fmtBits f = 32 then [(0, 0), (32, 32)] else [(0, 0)]

/-- The ranges of an operand over n positions. -/
def operandRanges (d : VDesc) (n : Nat) : List Range :=
  let (lo, hi) := posSpan d n
  match d.kind with
  | 0 => [⟨.vec, lo.toNat, hi.toNat⟩]
  | 1 => [⟨.acc, lo.toNat, hi.toNat⟩]
  | _ => (furtherRows (vfmt d)).map fun (a, b) => ⟨.tile, lo.toNat + a, hi.toNat + b⟩

/-- The operand's positions are inside their space (R191): 0 to 63, or the task's rows. -/
def operandInBound (d : VDesc) (n tsize : Nat) : Bool :=
  let (lo, hi) := posSpan d n
  if d.kind < 2 then decide (0 ≤ lo) && decide (hi ≤ 63)
  else decide (0 ≤ lo) && (furtherRows (vfmt d)).all fun (_, b) => decide (hi + b < tsize)

/-- The source descriptors a command uses, with how many positions each takes. The element rows of a VMXD are V / 2 (R202),
though R191 and R205 speak of positions 0 to V − 1: only the positions used are checked and recorded (DEDUCED, log 117). -/
def vSources (s : State) (c : Nat) (x : VxCmd) : List (VDesc × Nat) :=
  let (ua, ub, uc) := vSrcs x.op
  let n := if x.op = .vmxd then x.n / 2 else x.n
  (if ua then [(vdesc s c x.da, n)] else []) ++ (if ub && !x.bImm then [(vdesc s c x.db, x.n)] else []) ++
    (if uc then [(vdesc s c x.dc, x.n)] else [])

/-- The destination descriptor, if the command has one, with its positions: V / 2 element rows for VMXQ (DEDUCED, log 117). -/
def vDest (s : State) (c : Nat) (x : VxCmd) : List (VDesc × Nat) :=
  if vIsSummary x.op then [] else [(vdesc s c x.dst, if x.op = .vmxq then x.n / 2 else x.n)]

/-- The mask descriptor (R195). -/
def vMask (s : State) (c : Nat) (x : VxCmd) : List (VDesc × Nat) := if x.msk = 0 then [] else [(vdesc s c x.dm, x.n)]

/-- The scale row of VMXQ and VMXD (R201). -/
def vScaleRow (x : VxCmd) : List Range := [tileR (x.imm.toNat / 32) 1]

/-- Reads and writes of a vector command (R205), tile rows relative. -/
def vxRanges (s : State) (c : Nat) (x : VxCmd) : List Range × List Range :=
  let rd := ((vSources s c x ++ vMask s c x).map fun (d, n) => operandRanges d n).flatten
  let wr := ((vDest s c x).map fun (d, n) => operandRanges d n).flatten
  (rd ++ (if x.op = .vmxd then vScaleRow x else []), wr ++ (if x.op = .vmxq then vScaleRow x else []))

/-- The bound check of a vector command (R191). -/
def vxInBound (s : State) (c : Nat) (x : VxCmd) (tsize : Nat) : Bool :=
  (vSources s c x ++ vMask s c x ++ vDest s c x).all (fun (d, n) => operandInBound d n tsize) &&
    ((x.op != .vmxq && x.op != .vmxd) || decide (x.imm.toNat / 32 < tsize))

/-! ## Legality with descriptors (R193 to R202) -/

/-- Formats a tile-store operand of an ordinary opcode may have (R189): INT32W is a target of conversions alone. -/
def plainTile (f : Fmt) : Bool := !isMx f && f != .exact && f != .int32w

/-- Formats that a conversion may give a tile-store destination (R126, R130, R199, R200). -/
def cvtTile (f : Fmt) : Bool := plainTile f || f == .int32w

/-- A source fits the opcode (R189, R193): no floating-point tile-store source for an integer opcode, no accumulator
source for integer and raw opcodes. -/
def srcLegal (ty : LaneTy) (d : VDesc) : Bool :=
  match d.kind with
  | 0 => true
  | 1 => ty == .fp
  | 2 => plainTile (vfmt d) && (ty != .int || (fmtParams (vfmt d)).isNone)
  | _ => false

/-- A destination fits the lane type of the result (R194). -/
def dstLegal (ty : LaneTy) (d : VDesc) : Bool :=
  match d.kind with
  | 0 => true
  | 2 => match ty with
    | .fp => vfmt d == .fp32 || vfmt d == .bf16 || vfmt d == .fp16 || vfmt d == .e4m3 || vfmt d == .e5m2 || vfmt d == .int8
    | .int => vfmt d == .int32 || vfmt d == .int8
    | .raw => vfmt d == .fp32 || vfmt d == .int32
  | _ => false

/-- The MX element descriptor of VMXQ and VMXD (R201, R202). -/
def mxDescLegal (d : VDesc) : Bool :=
  d.kind == 2 && isMx (vfmt d) && d.lstride && (if vfmt d = .e2m1 then d.part == 0 || d.part == 2 else d.part == 0)

/-- A VCVT target is legal for its source (R126, R130, R137, R199). -/
def cvtLegal (s : State) (c : Nat) (x : VxCmd) : Bool :=
  let d := vdesc s c x.dst
  let da := vdesc s c x.da
  let t := vfmt d
  (d.kind == 0 || (d.kind == 2 && cvtTile t)) && (da.kind != 2 || plainTile (vfmt da)) && (da.kind != 3) &&
  (if da.kind = 1 then t != .int8 else t != .int32w)

/-- A VCVT to INT32W reads exact blocks only (R130): asked of the blocks' modes as the word is considered. -/
def vModesLegal (s : State) (c : Nat) (x : VxCmd) : Bool :=
  let da := vdesc s c x.da
  !(x.op == .vcvt && da.kind == 1 && vfmt (vdesc s c x.dst) == .int32w) || (List.range x.n).all fun v => accExact s c (vpos da v).toNat

/-- The checks of R198 on a command with its descriptors. `tbase` is the task's base, for the side rule of R202. -/
def vDescLegal (s : State) (c : Nat) (x : VxCmd) (tbase : Nat) : Bool :=
  let srcs := (vSources s c x).map (·.1)
  let d := vdesc s c x.dst
  let da := vdesc s c x.da
  let one := decide ((srcs.filter fun d => d.kind = 2).length ≤ 1) && decide ((srcs.filter fun d => d.kind = 1).length ≤ 1)
  let mask := (vMask s c x).all fun (d, _) => d.kind == 0
  one && mask && match x.op with
    | .vcvt => cvtLegal s c x
    | .vcvtp => da.kind == 2 && vfmt da == .exact && (d.kind == 0 || (d.kind == 2 && cvtTile (vfmt d)))
    | .vmxq => srcLegal .fp da && mxDescLegal d
    | .vmxd => mxDescLegal da && (d.kind == 0 || (d.kind == 2 && vfmt d == .fp32)) &&
        (List.range (x.n / 2)).all fun q => rowSide (tbase + (vpos da q).toNat) != rowSide (tbase + x.imm.toNat / 32)
    | .vsums | .vmaxs => srcLegal .fp da
    | .vcnt | .vany | .vfirst => da.kind < 2 || (da.kind == 2 && plainTile (vfmt da))
    | .vperm => srcLegal .raw da && (x.bImm || srcLegal .int (vdesc s c x.db)) && dstLegal .raw d
    | o => srcs.all (srcLegal (vLaneIn o)) && dstLegal (vLaneOut o) d

/-! ## Overlaps -/

/-- Two ranges overlap. -/
def overlaps (a b : Range) : Bool := a.space == b.space && decide (a.lo ≤ b.hi) && decide (b.lo ≤ a.hi)

/-- Any of the ranges overlaps any of the others. -/
def anyOverlap (a b : List Range) : Bool := a.any fun x => b.any fun y => overlaps x y

/-- Tile-store ranges made absolute. -/
def absR (tbase : Nat) (r : Range) : Range := if r.space = .tile then ⟨.tile, r.lo + tbase, r.hi + tbase⟩ else r

/-- Relative tile-store ranges within the task's size (R104). -/
def tileInBound (rs : List Range) (tsize : Nat) : Bool := rs.all fun r => r.space != .tile || decide (r.hi < tsize)

/-- A source that has the destination's kind, base and vstride with lstride 1 is read before it is overwritten (R205). -/
def inPlace (d src : VDesc) : Bool := src.kind == d.kind && src.base == d.base && src.vstride == d.vstride && src.lstride

/-- A command's own write range overlaps one of its own read ranges in a way that R205 makes a hazard. -/
def selfHazard (s : State) (c : Nat) (x : VxCmd) : Bool :=
  let wr := (vxRanges s c x).2
  let rd := (((vSources s c x).filter fun (d, _) => !(vDest s c x).any fun (e, _) => inPlace e d) ++ vMask s c x).map
    fun (d, n) => operandRanges d n
  anyOverlap wr (rd.flatten ++ (if x.op = .vmxd then vScaleRow x else []))

/-! ## Pending writes (R76) -/

/-- The pending write ranges of a core: when each became pending, its tag, its ranges. Commands from issue to the end of
their completion cycle, ring fills from their execution to the landing of their last row. -/
def pendingWrites (x : CoreSt) : List (Nat × BitVec 20 × List Range) :=
  (x.cmds.map fun k => (k.issued, k.tag, k.writes)) ++
    (((x.tasks.map (·.fills)).flatten.filter fun f => f.rowsLeft ≠ 0).map fun f => (f.at_, f.tag, [⟨.tile, f.lo, f.hi⟩])) ++ x.lateW

/-- The tag of the earliest pending writer that any of the ranges overlaps (R76). Of writers that became pending in one
cycle a command comes before a fill, and a fill before what completed in this cycle: R76 does not order them (DESIGN
CHOICE, log 115). -/
def pendingHit (x : CoreSt) (rs : List Range) : Option (BitVec 20) :=
  let hits := (pendingWrites x).filter fun (_, _, w) => anyOverlap rs w
  (hits.foldl (fun (acc : Option (Nat × BitVec 20)) (t, g, _) => match acc with
    | none => some (t, g)
    | some (u, h) => if t < u then some (t, g) else some (u, h)) none).map (·.2)

end Sys2Proof.Machine
end

