-- ==== Sys2Proof/Machine/Timing.lean ====
section
/-! DEFINITION. Machine/Timing.lean: the cycle tables (R78 to R81, R142, R167 to R170, R203, R204, R319), the ramp (R179,
R180), which command begins next and the room it needs (R50, R320), and the scheduled accesses of a cycle with their bank
conflicts (R92, R95, R96). -/
namespace Sys2Proof.Machine
open Sys2Proof

/-! ## The ramp (R179) -/

/-- Is ramp slot c one in which a step may read? -/
def slotAllowed (c : Nat) : Bool := decide (c % 4 ≤ c / 8)

/-- Read cycle of the next step ready at `cy` with the ramp at `ramp` (32: none): it waits in slots that are not allowed.
Every cycle in which it is ready consumes a slot: each of them with the slot that comes after it. -/
def rampNext : Nat → Nat → Nat → Nat × List (Nat × Nat)
  | 0, cy, _ => (cy, [])
  | fuel + 1, cy, ramp =>
    if ramp ≥ 32 then (cy, [])
    else if slotAllowed ramp then (cy, [(cy, ramp + 1)])
    else
      let r := rampNext fuel (cy + 1) (ramp + 1)
      (r.1, (cy, ramp + 1) :: r.2)

/-- Read cycles of n steps ready back to back from `cy`, and the slots they consume. -/
def rampRun : Nat → Nat → Nat → List Nat × List (Nat × Nat)
  | 0, _, _ => ([], [])
  | n + 1, cy, ramp =>
    let (t, p) := rampNext 32 cy ramp
    let rest := rampRun n (t + 1) ((p.getLast?.map (·.2)).getD ramp)
    (t :: rest.1, p ++ rest.2)

/-- The ramp that a step ready now finds (R179, R180): a step starts one where the schedule idle count is 64 or more; a Half
step does so only where none is in progress. -/
def rampAt (x : CoreSt) (half : Bool) : Nat :=
  if 64 ≤ x.idle ∧ (half = false ∨ 32 ≤ x.ramp) then 0 else x.ramp

/-! ## Cycle tables -/

/-- One access of a command: cycle, absolute row recorded, write. -/
structure Beat where
  cy : Nat
  row : Nat
  write : Bool
  deriving DecidableEq, Repr

/-- What a command's begin fixes: last input beat, completion, accesses, the cycles in which its results are written, step by
step, vector by vector or row by row, the ramp its first step finds, the slots it consumes, its step cycles. -/
structure Timing where
  lastIn : Nat
  due : Nat
  beats : List Beat
  outs : List Nat
  ramp : Nat
  plan : List (Nat × Nat)
  steps : List Nat
  deriving DecidableEq, Repr

/-- Reads at the given cycles. -/
def readsAt (l : List (Nat × Nat)) : List Beat := l.map fun (t, r) => ⟨t, r, false⟩

/-- The rows (as recorded) that step t of a stream reads (R161, R96). `src` is absolute. -/
def streamBeats (g : OpGroup) (src t : Nat) (tr : Bool) : List Nat :=
  if tr then
    if g = .half then
      let p := (src % 32 + t) % 2
      [src / 32 * 32 + p, (src / 32 + 1) * 32 + p]
    else [src / 32 * 32]
  else if twoSide g then [src + t, src + 32 + t] else [src + t]

/-- Timing of a matrix command that begins in cycle b (R78, R142, R167 to R170). -/
def mxTiming (x : CoreSt) (tb b : Nat) : MxCmd → Timing
  | .empty => ⟨b, b, [], [], x.ramp, [], []⟩
  | .wload f src _ sc _ _ _ =>
    if isMx f then ⟨b + 1, b + 3, readsAt [(b, tb + src), (b + 1, tb + sc)], [b + 3], x.ramp, [], []⟩
    else ⟨b, b + 2, readsAt [(b, tb + src)], [b + 2], x.ramp, [], []⟩
  | .wloadConveyor _ => ⟨b, b + 2, [], [b + 2], x.ramp, [], []⟩
  | .wloadScales src sc => ⟨b + 1, b + 3, readsAt [(b, tb + src), (b + 1, tb + sc)], [b + 2, b + 3], x.ramp, [], []⟩
  | .wloadSerial src _ _ => ⟨b, b + 2, readsAt [(b, tb + src)], [b + 2], x.ramp, [], []⟩
  | .mstream f n _ src tr _ _ =>
    let g := groupOf f
    if g = .half then
      let cys := (List.range n).map fun t => b + 4 * t
      let rd := ((List.range n).map fun t => (streamBeats g (tb + src) t tr).map fun r => (b + 4 * t, r)).flatten
      ⟨b + 4 * n - 1, b + 4 * n + 7, readsAt rd, cys.map (· + 11), rampAt x true, [],
        (cys.map fun t => [t, t + 1, t + 2, t + 3]).flatten⟩
    else
      let (cys, p) := rampRun n b (rampAt x false)
      let rd := ((cys.zip (List.range n)).map fun (cy, t) => (streamBeats g (tb + src) t tr).map fun r => (cy, r)).flatten
      let last := cys.getLast?.getD b
      ⟨last, last + 8, readsAt rd, cys.map (· + 8), rampAt x false, p, cys⟩
  | .mclear .. => ⟨b, b + 1, [], [b + 1], x.ramp, [], []⟩
  | .mdrain _ c ex dst =>
    let r := if ex then 6 else 2
    let wr := (List.range (r * c)).map fun i => (⟨b + 2 + i, tb + dst + i, true⟩ : Beat)
    ⟨b + r * (c - 1), b + r * c + 1, wr, (List.range (r * c)).map (b + 2 + ·), x.ramp, [], []⟩
  | .mserial wa wbw _ _ n _ src _ =>
    let st := serialSteps wa wbw
    let (cys, p) := rampRun (n * st) b (rampAt x false)
    let rd := ((List.range n).map fun q => (streamBeats .serial (tb + src) q false).map fun r => (cys.getD (q * st) b, r)).flatten
    let last := cys.getLast?.getD b
    ⟨last, last + 8, readsAt rd, (List.range n).map (fun q => cys.getD ((q + 1) * st - 1) last + 8), rampAt x false, p, cys⟩

/-- Class S opcodes (R196). -/
def classS : VOp → Bool
  | .spec .. => true
  | _ => false

/-- The accesses of a tile-store operand at vector v. -/
def operandBeats (d : VDesc) (tb v : Nat) : List Nat :=
  let x := tb + (vpos d v).toNat
  if fmtBits (vfmt d) = 32 then
    if d.lstride then [x, x + 32] else [x + 32 * (d.elem / 8)]
  else [x]

/-- The rows that a tile-store destination takes at vector v: an FP32 or INT32 destination writes rows x and x + 32 in one
cycle, one on each side (R204). -/
def destBeats (d : VDesc) (tb v : Nat) : List Nat :=
  let x := tb + (vpos d v).toNat
  if fmtBits (vfmt d) = 32 then [x, x + 32] else [x]

/-- Cycles from a vector command's begin to its writes, in order (R202 to R204): those of its vectors, for VMXQ the element
row and the scale byte of each block in turn, for a summary the cycle in which its word goes out. -/
def vxOuts (b due : Nat) (x : VxCmd) : List Nat :=
  if vIsSummary x.op then [due]
  else if x.op = .vmxq then ((List.range (x.n / 2)).map fun q => [b + 7 + 2 * q, b + 8 + 2 * q]).flatten
  else (List.range x.n).map fun v => b + vFirstWrite x.op + vPerWrite x.op * v

/-- Timing of a vector command that begins in cycle b (R79, R190, R202 to R204, R214). -/
def vxTiming (s : State) (c : Nat) (ramp tb b : Nat) (x : VxCmd) : Timing :=
  let n := x.n
  let src := ((vSources s c x).map (·.1)).filter fun d => d.kind = 2
  let d := vdesc s c x.dst
  let rd : List (Nat × Nat) := match x.op with
    | .vcvtp => ((List.range n).map fun v => (List.range 6).map fun i => (b + 6 * v + i, tb + (vpos (vdesc s c x.da) v).toNat + i)).flatten
    | .vmxd => ((List.range (n / 2)).map fun q =>
        [(b + 2 * q, tb + (vpos (vdesc s c x.da) q).toNat), (b + 2 * q, tb + x.imm.toNat / 32)]).flatten
    | _ => (src.map fun d =>
        let vs := if !d.lstride && d.vstride == 0 then [0] else List.range n
        (vs.map fun v => (operandBeats d tb v).map fun r => (b + v, r)).flatten).flatten
  let first := vFirstWrite x.op
  let per := vPerWrite x.op
  let wr : List Beat :=
    if vIsSummary x.op || d.kind != 2 then []
    else if x.op = .vmxq then ((List.range (n / 2)).map fun q =>
      [⟨b + 7 + 2 * q, tb + (vpos d q).toNat, true⟩, ⟨b + 8 + 2 * q, tb + x.imm.toNat / 32, true⟩]).flatten
    else ((List.range n).map fun v => (destBeats d tb v).map fun r => (⟨b + first + per * v, r, true⟩ : Beat)).flatten
  let last := b + per * n - 1
  let due := match x.op with
    | .vcvtp => b + 6 * n + 5
    | .vmxq => b + n + 6
    | o => if vIsSummary o then b + n + 11 else if classS o then b + n + 13 else b + n + 5
  ⟨last, due, readsAt rd ++ wr, vxOuts b due x, ramp, [], []⟩

/-- Timing of an execute-side move command that begins in cycle b (R80, R81, R319). -/
def mvTiming (ramp tb b : Nat) : MvCmd → Timing
  | .tcopy src dst m tr =>
    let n := m + 1
    let rd := (List.range n).map fun i => (b + i, if tr then tb + src else tb + src + i)
    let wr := (List.range n).map fun i => (⟨b + 2 + i, tb + dst + i, true⟩ : Beat)
    ⟨b + n - 1, b + n + 1, readsAt rd ++ wr, (List.range n).map (b + 2 + ·), ramp, [], []⟩
  | .mput src _ g _ =>
    let n := 2 * (g + 1)
    ⟨b + n - 1, b + n - 1, readsAt ((List.range n).map fun i => (b + i, tb + src + i)), [], ramp, [], []⟩
  | .mscatter src _ idx m =>
    let ni := idxRows (m + 1)
    let rd := (List.range ni).map (fun i => (b + i, tb + idx + i)) ++
      (List.range (2 * (m + 1))).map fun i => (b + ni + i, tb + src + i)
    ⟨b + ni + 2 * (m + 1) - 1, b + ni + 1, readsAt rd, [], ramp, [], []⟩
  | .msend src m _ => ⟨b + m, b + m + 2, readsAt ((List.range (m + 1)).map fun i => (b + i, tb + src + i)), [], ramp, [], []⟩
  | _ => ⟨b, b, [], [], ramp, [], []⟩

/-- Timing of a command. -/
def cmdTiming (s : State) (c : Nat) (k : Cmd) (b : Nat) : Timing :=
  let x := getCore s c
  match k.eng with
  | .matrix => mxTiming x k.tbase b ((decodeMatrix k.slot).getD .empty)
  | .vector => match decodeVector k.slot with
    | some (some y) => vxTiming s c x.ramp k.tbase b y
    | _ => ⟨b, b, [], [], x.ramp, [], []⟩
  | _ => mvTiming x.ramp k.tbase b ((decodeMove k.slot).getD .empty)

/-! ## Which command begins (R50, R320) -/

/-- First cycle in which an engine may begin (R50). -/
def engFree (x : CoreSt) : EngineId → Nat
  | .matrix => x.freeM | .vector => x.freeV | .move => x.freeX | .send => x.freeS

/-- Sets it. -/
def setEngFree (x : CoreSt) (e : EngineId) (t : Nat) : CoreSt :=
  match e with
  | .matrix => { x with freeM := t }
  | .vector => { x with freeV := t }
  | .move => { x with freeX := t }
  | .send => { x with freeS := t }

/-- The engines run: clocks on, the core started and not fenced. Begun and queued commands go on in every state but
RESET (R51, R58, R60). -/
def engRuns (s : State) (c : Nat) : Bool := s.clocksOn && (getCore s c).mode != .reset && !coreFenced s c

/-- The queued command that an engine would begin, if R50 lets it begin in this cycle. -/
def nextBegin (s : State) (c : Nat) (e : EngineId) : Option Cmd :=
  let x := getCore s c
  match x.cmds.find? fun k => k.eng == e && k.begun.isNone with
  | some k => if k.issued < s.cycle ∧ engFree x e ≤ s.cycle then some k else none
  | none => none

/-- Granule transactions and write beats of an MPUT or MSCATTER: a tile of sixteen granules is one transaction (R44, R320). -/
def putNeeds : MvCmd → Option (Nat × Nat)
  | .mput _ _ g _ => some (if g = 15 then 1 else g + 1, 2 * (g + 1))
  | .mscatter _ _ _ n => some (n + 1, 2 * (n + 1))
  | _ => none

/-- Requests and beats that a begun MPUT or MSCATTER has reserved and not yet sent (R320). -/
def reservedBy (k : Cmd) : Nat × Nat :=
  if k.eng = .move ∧ k.begun.isSome ∧ k.done = false then
    match putNeeds ((decodeMove k.slot).getD .empty) with
    | some (n, b) => (n - k.outN, b - 2 * k.outN)
    | none => (0, 0)
  else (0, 0)

/-- Memory-queue entries of a core that are held: transactions outstanding and those that a begun command has reserved
(R312, R320). -/
def memHeld (x : CoreSt) : Nat := x.outst + (x.cmds.map fun k => (reservedBy k).1).sum

/-- Write beats of 32 bytes that a transaction brings. -/
def txnBeats (t : Txn) : Nat := if t.write then t.len / 32 else 0

/-- Puts a request into a list in order of cycle, ties in the order of cluster-local core numbers, then as made (R314). -/
def insertTxn (t : Txn) : List Txn → List Txn
  | [] => [t]
  | u :: l =>
    if t.leftAt < u.leftAt ∨ (t.leftAt = u.leftAt ∧ localOf t.core < localOf u.core) then t :: u :: l else u :: insertTxn t l

/-- The requests of a cluster at a stage, in that order. -/
def cluTxns (s : State) (k : Nat) (g : TxnStage) : List Txn :=
  ((getField s (k / 256)).txns.filter fun t => t.cls == 0 && t.stage == g && cluOf t.core == k).foldl (fun l t => insertTxn t l) []

/-- Transactions that stand at a cluster's port, in order of leaving their cores. -/
def portTxns (s : State) (k : Nat) : List Txn := cluTxns s k .port

/-- Requests and beats that begun MPUT and MSCATTER commands of a cluster have reserved and not yet sent (R320). -/
def portReserved (s : State) (k : Nat) : Nat × Nat :=
  (List.range 64).foldl (fun (a : Nat × Nat) i =>
    (getCore s (coreOfClu k i)).cmds.foldl (fun a c => (a.1 + (reservedBy c).1, a.2 + (reservedBy c).2)) a) (0, 0)

/-- The port of a cluster has room for n more requests and b more beats (64 and 512, R312). -/
def portRoom (s : State) (k n b : Nat) : Bool :=
  let ts := portTxns s k
  let r := portReserved s k
  decide (ts.length + r.1 + n ≤ 64) && decide ((ts.map txnBeats).sum + r.2 + b ≤ 512)

/-- Room for an MPUT's or MSCATTER's transactions in the core's memory queue and at the cluster port (R320). -/
def putRoom (s : State) (c : Nat) (k : Cmd) : Bool :=
  if k.eng != .move then true
  else match putNeeds ((decodeMove k.slot).getD .empty) with
    | some (n, b) => decide (memHeld (getCore s c) + n ≤ 32) && portRoom s (cluOf c) n b
    | none => true

/-! ## Scheduled accesses (R92, R95, R96) -/

/-- Priority of the engines: matrix, vector, move, send (R96). -/
def engRank : EngineId → Nat
  | .matrix => 1 | .vector => 2 | .move => 3 | .send => 4

/-- Two scheduled accesses meet. -/
def meets (a b : SchedAcc) : Bool := a.cy == b.cy && a.odd == b.odd && a.write == b.write

/-- Adds an access to the schedule: of two that meet, the first engine's in the order of R96 is served; of one engine's,
the earlier (DEDUCED: R96 orders engines only). -/
def addAccess (l : List SchedAcc) (a : SchedAcc) : List SchedAcc :=
  match l.find? fun b => meets a b && !b.lost with
  | none => l ++ [a]
  | some b =>
    if engRank a.eng < engRank b.eng then
      (l.map fun y => if meets a y && !y.lost then { y with lost := true } else y) ++ [a]
    else l ++ [{ a with lost := true }]

/-- The scheduled accesses of a command that begins in cycle b. -/
def accsOf (s : State) (c : Nat) (k : Cmd) (b : Nat) : List SchedAcc :=
  (cmdTiming s c k b).beats.map fun a => ⟨a.cy, rowSide a.row, a.write, k.eng, a.row, k.tag, false, false⟩

/-- The commands that begin in this cycle and have not yet been seen to: R50 leaves their begin no choice. -/
def beginning (s : State) (c : Nat) : List Cmd :=
  if !engRuns s c then []
  else [EngineId.matrix, .vector, .move, .send].filterMap fun e => match nextBegin s c e with
    | some k => if putRoom s c k then some k else none
    | none => none

/-- The schedule of a core as it stands once the commands that begin in this cycle have begun. -/
def schedNow (s : State) (c : Nat) : List SchedAcc :=
  ((beginning s c).map fun k => accsOf s c k s.cycle).flatten.foldl addAccess (getCore s c).sched

/-- A bank conflict of this cycle has not yet been raised (R96): until it is, nothing issues. -/
def conflictNow (s : State) (c : Nat) : Bool :=
  (schedNow s c).any fun a => a.lost && !a.told && decide (a.cy ≤ s.cycle)

/-- A scheduled access of a direction falls on a side in this cycle (R92). -/
def portBusy (s : State) (c : Nat) (odd write : Bool) : Bool :=
  (schedNow s c).any fun a => a.cy == s.cycle && a.odd == odd && a.write == write && !a.lost

end Sys2Proof.Machine
end

