-- ==== Sys2Proof/Machine/Seq.lean ====
section
/-! DEFINITION. Machine/Seq.lean: the core sequencer (R47 to R64): considering a word, the checks of issue, issue, waits
and their horizons, loops, decision points, the end of a task, starting a core. -/
namespace Sys2Proof.Machine
open Sys2Proof

/-! ## The word considered -/

/-- CORE_TASKt_IMEM: valid, isize, ibase (R65, R82). -/
def taskValid (s : State) (c t : Nat) : Bool := getB s (coreReg c (oCoreTaskImem + 8 * t)) 24
/-- Words of a task's range, isize + 1. -/
def taskWords (s : State) (c t : Nat) : Nat := getF s (coreReg c (oCoreTaskImem + 8 * t)) 23 16 + 1
/-- ibase. -/
def taskIbase (s : State) (c t : Nat) : Nat := getF s (coreReg c (oCoreTaskImem + 8 * t)) 7 0
/-- tbase of a task in rows (R104). -/
def taskTbase (s : State) (c t : Nat) : Nat := getF s (coreReg c (oCoreTaskTs + 8 * t)) 10 0
/-- tsize of a task in rows. -/
def taskTsize (s : State) (c t : Nat) : Nat := getF s (coreReg c (oCoreTaskTs + 8 * t)) 26 16

/-- A command word from the instruction store (R37). -/
def imemWord (s : State) (c word : Nat) : W256 := BitVec.ofNat 256 (rdNat s (imemAddr c word) 32)

/-- Word w of a task (R37). -/
def taskWord (s : State) (c t w : Nat) : W256 := imemWord s c (taskIbase s c t + w)

/-- The word the sequencer considers. -/
def curWord (s : State) (c : Nat) : W256 :=
  let x := getCore s c
  taskWord s c x.task (curTask x).pc

/-- A hush has been requested, and has not come: req is set, or a line's last arrival has sampled it (R39, R353). -/
def hushWanted (s : State) : Bool := getB s (modReg oClkHushCtl) 0 || s.gar.any fun g => g.2.hush

/-- May the sequencer consider a word: the core runs, nothing holds it, one word per cycle, no bank conflict of this cycle
stops it (R39, R47, R58, R96, R251). -/
def seqReady (s : State) (c : Nat) : Bool :=
  let x := getCore s c
  s.clocksOn && x.mode == .run && !x.ended && !(x.hpHold && hushWanted s) && !x.sbHold &&
    x.considered != some s.cycle && !coreFenced s c && !conflictNow s c

/-! ## Check 1: ILLEGAL_COMMAND (R46, R48) -/

/-- The slot code that a fault in the move slot carries (R82): 4 for the send port, 3 otherwise. -/
def moveSlotCode (w : W256) : Nat := if bitsOf (wMove w) 55 52 = 0xB then 4 else 3

/-- The realign line (R252). -/
def realignLine (s : State) : Nat := getF s (modReg oGarRealign) 2 0

/-- Role of a channel entry: 0 unused, 1 send, 2 plain receive, 3 combining receive (R291, R307). -/
def chanRole (s : State) (c ch : Nat) : Nat := getF s (coreReg c (oCoreChan + 8 * ch)) 63 62

/-- The first part of the word whose encoding is illegal, as a slot code: word, matrix, vector, move (R48). What depends on
state that changes as the core runs (the blocks' modes, a channel's role) is asked only with `now`. -/
def illegalPart (s : State) (c : Nat) (w : W256) (now : Bool) : Option Nat :=
  if !(ownLegal w && sigLegal w && !(wBarEn w && wBarLine w == realignLine s)) then some 0
  else if (decodeMatrix (wMatrix w)).isNone then some 1
  else match decodeVector (wVector w) with
    | none => some 2
    | some v =>
      let bad := match v with
        | some x => !vDescLegal s c x (taskTbase s c (getCore s c).task) || (now && !vModesLegal s c x)
        | none => false
      if bad then some 2
      else match decodeMove (wMove w) with
        | none => some (moveSlotCode w)
        | some (.msend _ _ ch) => if now && chanRole s c ch != 1 then some 4 else none
        | some _ => none

/-- The first part of a considered word that is illegal (R48, R282). -/
def illegalSlot (s : State) (c : Nat) (w : W256) : Option Nat := illegalPart s c w true

/-- The decoded slots of a legal word. -/
def slotM (w : W256) : MxCmd := (decodeMatrix (wMatrix w)).getD .empty
/-- The vector slot. -/
def slotV (w : W256) : Option VxCmd := (decodeVector (wVector w)).getD none
/-- The move slot. -/
def slotX (w : W256) : MvCmd := (decodeMove (wMove w)).getD .empty

/-! ## Check 2: BOUND_VIOLATION (R48, R62, R105, R191, R316) -/

/-- The next word by the loop field: none where END ends the task or the word is a decision point (R57, R59). -/
def nextWord (x : CoreSt) (w : W256) : Option Int :=
  let t := curTask x
  let pc : Int := t.pc
  if wDp w then none
  else match wLoopOp w with
    | 3 => if (t.loops.getD (wLoopLvl w) 0).toNat = 0 then some (pc + 1) else some (pc - (wLoopArg w % 256 : Nat))
    | 4 => some (wLoopArg w % 256 : Nat)
    | 5 => none
    | _ => some (pc + 1)

/-- CORE_ADRn.addr (R45). -/
def adrVal (s : State) (c n : Nat) : Nat := getF s (coreReg c (oCoreAdr + 8 * n)) 47 0

/-- The descriptor advances once by 64 × adv, adv signed (R45). -/
def adrAdvance (s : State) (c n : Nat) : State :=
  let r := coreReg c (oCoreAdr + 8 * n)
  setF s r 47 0 (patternOf 48 (adrVal s c n + 64 * signedOf 16 (getF s r 63 48)))

/-- An address of n granules lies in the stacked memory of the core's own field (R316). -/
def inOwnField (c addr n : Nat) : Bool :=
  let f := fieldOfCore c
  decide (memBase f ≤ addr) && decide (addr + 64 * n ≤ memBase (f + 1))

/-- The first granule address of a run outside the core's own field (R316). -/
def firstOutside (c addr n : Nat) : Nat :=
  (((List.range n).map fun i => addr + 64 * i).find? fun a => !inOwnField c a 1).getD addr

/-- kind[50:48] and addr[47:0] of a detail word (R538). -/
def memDetail (kind a : Nat) : Nat := kind % 8 * 2 ^ 48 + a % 2 ^ 48

/-- Records CORE_MEM_FAULT: kind and address; the first record stands until its valid bit is cleared. -/
def memFault (s : State) (c kind addr : Nat) : State :=
  let r := coreReg c oCoreMemFault
  if getB s r 63 then s else setReg s r (BitVec.ofNat 64 (2 ^ 63 + kind % 8 * 2 ^ 60 + addr % 2 ^ 48))

/-- What check 2 finds: the slot, and the address of an MPUT that fails R316. -/
def boundFail (s : State) (c : Nat) (w : W256) : Option (Nat × Option Nat) :=
  let x := getCore s c
  let ts := taskTsize s c x.task
  let m := mxRanges (slotM w)
  let v := slotV w
  let mv := mvRanges (slotX w)
  if !tileInBound (m.1 ++ m.2) ts then some (1, none)
  else if (match v with | some y => !vxInBound s c y ts | none => false) then some (2, none)
  else if !tileInBound (mv.1 ++ mv.2) ts then some (moveSlotCode w, none)
  else
    let put := match slotX w with
      | .mput _ adr g ofs => let a := adrVal s c adr + 64 * ofs
        if inOwnField c a (g + 1) then none else some (firstOutside c a (g + 1))
      | _ => none
    match put with
    | some a => some (3, some a)
    | none => match nextWord x w with
      | some n => if 0 ≤ n ∧ n < taskWords s c x.task then none else some (0, none)
      | none => none

/-- The granules that an overlay's words lie in: first address, how many (R63). -/
def ovlSpan (s : State) (c : Nat) (w : W256) : Nat × Nat :=
  let r := coreReg c (oCoreOvl + 8 * wOvlIdx w)
  let a := getF s r 47 0
  (a / 64 * 64, (a % 64 + 32 * (getF s r 63 56 + 1) + 63) / 64)

/-- The first granule of a decision point's overlay that lies outside the core's field (R316), if one does. R316 does not
say when an overlay's address is checked: it is checked as the word would issue, with R63's check and in slot 0 (DESIGN
CHOICE, log 115). -/
def overlayOutside (s : State) (c : Nat) (w : W256) : Option Nat :=
  if wDp w && wOvlEn w then
    let (a, n) := ovlSpan s c w
    if inOwnField c a n then none else some (firstOutside c a n)
  else none

/-- The overlay of a decision point fits the task's range (R63). -/
def overlayFits (s : State) (c : Nat) (w : W256) : Bool :=
  !(wDp w && wOvlEn w) ||
    let r := coreReg c (oCoreOvl + 8 * wOvlIdx w)
    decide (getF s r 55 48 + getF s r 63 56 + 1 ≤ taskWords s c (getCore s c).task)

/-! ## Check 3: RANGE_HAZARD (R76) -/

/-- Absolute reads and writes of the three slots, in slot order. -/
def slotRanges (s : State) (c : Nat) (w : W256) : List (Nat × List Range × List Range) :=
  let tb := taskTbase s c (getCore s c).task
  let ab (p : List Range × List Range) := (p.1.map (absR tb), p.2.map (absR tb))
  let m := ab (mxRanges (slotM w))
  let v := match slotV w with | some y => ab (vxRanges s c y) | none => ([], [])
  let x := ab (mvRanges (slotX w))
  [(1, m.1, m.2), (2, v.1, v.2), (moveSlotCode w, x.1, x.2)]

/-- The first slot that meets a hazard, and the other tag (R76). -/
def hazardFail (s : State) (c : Nat) (w : W256) : Option (Nat × BitVec 20) :=
  let x := getCore s c
  let rs := slotRanges s c w
  let self := match slotV w with | some y => selfHazard s c y | none => false
  let go := rs.foldl (fun (acc : Option (Nat × BitVec 20) × List Range) (slot, rd, wr) =>
    match acc.1 with
    | some _ => acc
    | none =>
      let hit := match pendingHit x (rd ++ wr) with
        | some t => some (slot, t)
        | none => if anyOverlap acc.2 (rd ++ wr) || (slot == 2 && self) then some (slot, wTag w) else none
      (hit, acc.2 ++ wr)) (none, [])
  go.1

/-! ## Check 4: QUEUE_OVERRUN (R36, R49) -/

/-- Queue depth of an engine (R36). -/
def queueDepth : EngineId → Nat
  | .matrix => 4 | .vector => 4 | .move => 8 | .send => 4

/-- Queue entries held: commands issued and not begun (R49). A command that began in this cycle still holds its entry, also
an RPOP, which has completed in it. -/
def queueHeld (x : CoreSt) (cy : Nat) (e : EngineId) : Nat :=
  (x.cmds.filter fun k => k.eng == e && (k.begun.isNone || k.begun == some cy)).length +
    (e == .move && x.popped.any fun p => p.1 == cy).toNat

/-- The engine that a word's move slot goes to, if it is execute-side. -/
def moveEngine : MvCmd → Option EngineId
  | .empty => none
  | .msend .. => some .send
  | m => if isFetchSide m then none else some .move

/-- Rows of a send command. -/
def sendLen (k : Cmd) : Nat := match decodeMove k.slot with
  | some (.msend _ m _) => m + 1
  | _ => 0

/-- Rows that MSENDs hold or will hold in the send buffer: those in it, one that has left it in this cycle, and those of
commands queued or begun that have not entered it (R282). -/
def sendRoom (x : CoreSt) (cy : Nat) : Nat :=
  x.sendBuf.length + (x.sentAt == some cy).toNat + ((x.cmds.filter fun k => k.eng == .send).map fun k => sendLen k - k.rows).sum

/-- The first slot whose queue has no free entry, or an MSEND that would overfill the send buffer (R48, R282). -/
def overrunFail (s : State) (c : Nat) (w : W256) : Option Nat :=
  let x := getCore s c
  let full (e : EngineId) := decide (queueDepth e ≤ queueHeld x s.cycle e)
  if slotM w != .empty && full .matrix then some 1
  else if (slotV w).isSome && full .vector then some 2
  else match slotX w with
    | .msend _ m _ => if full .send || decide (64 < sendRoom x s.cycle + m + 1) then some 4 else none
    | m => match moveEngine m with
      | some e => if full e then some (moveSlotCode w) else none
      | none => none

/-! ## Issue (R47) -/

/-- Is the command a drawing command (R134, R194)? -/
def drawing (x : VxCmd) : Bool := x.rnd == .sr || x.op == .vdrop || x.op == .vrand

/-- The completion signal that a word attaches to a slot: s_when 1 matrix, 2 vector, 3 move (R41). -/
def sigFor (w : W256) (which : Nat) : Option (Nat × Nat) :=
  if wSigEn w && wSigWhen w == which then some (wSigCtr w, wSigInc w) else none

/-- The commands that a word puts into queues. -/
def issueCmds (s : State) (c : Nat) (w : W256) : List Cmd :=
  let x := getCore s c
  let tb := taskTbase s c x.task
  let base (e : EngineId) (slot : Nat) (sig : Option (Nat × Nat)) (wr : List Range) : Cmd :=
    { eng := e, slot := slot, tag := wTag w, step := coreStep s c, sig := sig, task := x.task, tbase := tb
      rc := BitVec.ofNat 32 (getF s (coreReg c oCoreRng) 31 0), addr := 0, idx := x.issIdx, issued := s.cycle
      writes := wr.map (absR tb), begun := none, lastIn := 0, due := 0, done := false, acks := 0
      seed := getReg s (modReg oModRngSeed) }
  let m := if slotM w = .empty then [] else [base .matrix (wMatrix w) (sigFor w 1) (mxRanges (slotM w)).2]
  let v := match slotV w with
    | some y => [base .vector (wVector w) (sigFor w 2) (vxRanges s c y).2]
    | none => []
  let mv := match moveEngine (slotX w) with
    | some e =>
      let k := base e (wMove w) (sigFor w 3) (mvRanges (slotX w)).2
      match slotX w with
      | .mput _ adr _ ofs => [{ k with addr := adrVal s c adr + 64 * ofs }]
      | .msend .. => [{ k with addr := getF s (coreReg c oCoreCtrStatus) 19 16 }]
      | _ => [k]
    | none => []
  m ++ v ++ mv

/-- Sets the loop counter of a level. -/
def setLoop (t : TaskSt) (lvl : Nat) (v : W32) : TaskSt := { t with loops := t.loops.set lvl v }

/-- The loop field takes effect (R57): loop counters and the next word. -/
def loopStep (s : State) (c : Nat) (w : W256) : State :=
  modCore s c fun x =>
    let t := curTask x
    let t := match (if wDp w then 0 else wLoopOp w) with
      | 1 => setLoop t (wLoopLvl w) (BitVec.ofNat 32 (wLoopArg w))
      | 2 => setLoop t (wLoopLvl w) (BitVec.ofNat 32 (getF s (coreReg c (oCoreLoopinit + 8 * (wLoopArg w % 4))) 31 0))
      | 3 => let n := t.loops.getD (wLoopLvl w) 0; if n = 0#32 then t else setLoop t (wLoopLvl w) (n - 1#32)
      | _ => t
    let t := match nextWord x w with
      | some n => { t with pc := n.toNat }
      | none => t
    { setTask x t with ended := x.ended || (!wDp w && wLoopOp w == 5) }

/-- The core is a member of a Garnet line (R256). -/
def garMember (s : State) (c n : Nat) : Bool :=
  let k := cluInField c
  getB s (cluReg (cluOf c) (oCluGarMask + 8 * n)) (localOf c) &&
    getB s (fieldReg (fieldOfCore c) (oGarFmask + 0x20 * n + 8 * (k / 64))) (k % 64) &&
    getB s (modReg (oGarLineFields + 8 * n)) (fieldOfCore c)

/-- CORE_GARn of a core. -/
def garReg (c n : Nat) : Nat := coreReg c (oCoreGar + 8 * n)

/-- The count register of a core's fallback group of a line (R265). -/
def garGroup (s : State) (c n : Nat) : Nat := modReg (oGarFbexpG + 0x80 * n + 8 * getF s (garReg c n) 9 6)

/-- Why an arrival of a core on a line would be BARRIER_EARLY, as its detail word (R259): its previous one is still held, it
is no member, or in fallback its group is unused (R265). -/
def garRefused (s : State) (c n : Nat) : Option Nat :=
  let fb := getB s (modReg (oGarLineCtl + 8 * n)) 0
  if getB s (garReg c n) 10 || !garMember s c n || (fb && getF s (garGroup s c n) 20 0 == 0) then some (fb.toNat * 8 + n) else none

/-- A core arrives on a line (R259), by a word with the tag given: its arrival is held until the release; early or
without membership it faults. In fallback the arrival also counts toward its group (R265). -/
def garArrive (s : State) (c n : Nat) (tag : BitVec 20) : State :=
  match garRefused s c n with
  | some d => coreFault s c .barrierEarly tag 0 d
  | none =>
    let y := getGar s n
    let t := setF s (garReg c n) 10 10 1
    if getB s (modReg (oGarLineCtl + 8 * n)) 0 then
      setGar (addF t (garGroup s c n) 52 32 1) n { y with last := s.cycle, lastNs := y.lastNs.set (getF s (garReg c n) 9 6) (quartz s) }
    else setGar t n { y with last := s.cycle }

/-- Sends the overlay read of a decision point (R63); defined over the transactions in Memory.lean, it is passed in. -/
abbrev SendOverlay := State → Nat → W256 → State

/-- Issue of a word (R47): its commands, its own effects, the loop field, and what its ctl bits bring. -/
def issueEffect (ovl : SendOverlay) (s : State) (c : Nat) (w : W256) : State :=
  let ks := issueCmds s c w
  let s := act s c 18 1
  let s := modCore s c fun x => { x with cmds := x.cmds ++ ks, waitSince := none, missed := false, issIdx := x.issIdx + 1 }
  -- the descriptor of an MPUT advances at its use (R45)
  let s := match slotX w with
    | .mput _ adr _ _ => adrAdvance s c adr
    | _ => s
  -- draw counter (R134)
  let s := match slotV w with
    | some y => if drawing y then setF s (coreReg c oCoreRng) 31 0 (getF s (coreReg c oCoreRng) 31 0 + 16 * y.n) else s
    | none => s
  let s := if wSb w then setF s (coreReg c oCoreRng) 31 0 0 else s
  -- signal, GE_SUB, phase mark
  let s := if wSigEn w && wSigWhen w == 0 then ctrBump s c (wSigCtr w) (wSigInc w) else s
  let s := if wWaitEn w && wWaitCond w == 2 then ctrBump s c (wWaitCtr w) (-(wWaitVal w : Int)) else s
  let x0 := getCore s c
  let s := trace s c 0x01 (some (wTag w)) ((curTask x0).pc % 256 + x0.task * 2 ^ 8 + s.cycle % 2 ^ 24 * 2 ^ 16)
  let s := if getF s (coreReg c oCorePhase) 7 0 = wPhase w then s else trace s c 0x02 (some (wTag w)) (wPhase w)
  let s := setF s (coreReg c oCorePhase) 7 0 (wPhase w)
  let s := loopStep s c w
  let s := if wBarEn w || wSb w then modCore s c fun x => { x with hpWord := wHp w } else s
  let s := if wBarEn w then garArrive s c (wBarLine w) (wTag w) else s
  let s := modCore s c fun x => { x with hpHold := wHp w && hushWanted s }
  let s := if wSb w then modCore s c fun x => { x with sbHold := true, sbArrived := false } else s
  if wDp w then
    let s := modCore s c fun x => { x with mode := .drain, dpTag := wTag w, ovlWait := wOvlEn w }
    if wOvlEn w then ovl s c w else s
  else s

/-- BARRIER_EARLY of a word that would arrive (R259): the faulting word issues nothing (R51), so it is raised after the
checks of R48 and before the issue (DESIGN CHOICE, log 37). -/
def barrierFail (s : State) (c : Nat) (w : W256) : Option Nat := if wBarEn w then garRefused s c (wBarLine w) else none

/-- The horizon of a wait (R55). -/
def horizonOf (s : State) (c : Nat) (w : W256) : Nat := getF s (coreReg c (oCoreHorizon + 8 * wWaitHz w)) 31 0

/-- Is the word's wait absent or met now (R52)? -/
def waitOk (s : State) (c : Nat) (w : W256) : Bool :=
  !wWaitEn w || waitMet (ctrVal s c (wWaitCtr w)) (BitVec.ofNat 16 (wWaitVal w)) (wWaitCond w)

/-- The sequencer considers a word (R47, R48, R55): an illegal word faults at once; an unmet wait holds the sequencer
from its first evaluation; otherwise checks 2 to 4 are made in order and the word issues whole or not at all. -/
def considerWord (ovl : SendOverlay) (s : State) (c : Nat) : State :=
  let w := curWord s c
  let s := modCore s c fun x => { x with considered := some s.cycle, lastTag := wTag w }
  match (if (getCore s c).waitSince.isNone then illegalSlot s c w else none) with
  | some slot => coreFault s c .illegalCommand (wTag w) slot 0
  | none =>
    if !waitOk s c w then
      modCore s c fun x => { x with waitSince := some (x.waitSince.getD s.cycle) }
    else match boundFail s c w with
      | some (slot, adr) =>
        let (s, d) := match adr with | some a => (memFault s c 2 a, memDetail 2 a) | none => (s, 0)
        coreFault s c .boundViolation (wTag w) slot d
      | none =>
        -- R63 makes its check as the word issues and names no place among R48's: last of check 2, slot 0 (log 115)
        if !overlayFits s c w then coreFault s c .boundViolation (wTag w) 0 0
        else match overlayOutside s c w with
          | some a => coreFault (memFault s c 2 a) c .boundViolation (wTag w) 0 (memDetail 2 a)
          | none => match hazardFail s c w with
            | some (slot, other) => coreFault s c .rangeHazard (wTag w) slot other.toNat
            | none => match overrunFail s c w with
              | some slot => coreFault s c .queueOverrun (wTag w) slot 0
              | none => match barrierFail s c w with
                | some d => coreFault s c .barrierEarly (wTag w) 0 d
                | none => issueEffect ovl s c w

/-- The wait that holds the sequencer is past its horizon: it was evaluated for H cycles (R55). -/
def horizonOver (s : State) (c : Nat) : Bool :=
  match (getCore s c).waitSince with
  | some t => decide (t + horizonOf s c (curWord s c) ≤ s.cycle)
  | none => false

/-! ## Starting and redirecting (R61, R62, R69) -/

/-- An entry is usable: valid, of a valid task, its word in the task's range (R62). -/
def entryOk (s : State) (c e : Nat) : Bool :=
  let r := coreReg c (oCoreEntry + 8 * e)
  let t := getF s r 9 8
  getB s r 10 && taskValid s c t && decide (getF s r 7 0 < taskWords s c t)

/-- Is a background read one of the index rows of an RGATHER? -/
def isIndexRead (r : BgRead) : Bool := match r.src with
  | .index .. => true
  | _ => false

/-- The core begins at an entry: task, word, fetch pointer, and what the fetch engine had begun at its last word is dropped.
A step boundary whose realign is outstanding goes on holding it (R251), and the fetch engine stands past that boundary;
an unusable entry faults in the word slot with the tag given: 0 at a start (R69), that of the decision-point word at a
redirect (R62; the word concerned). -/
def enterAt (s : State) (c e : Nat) (tag : BitVec 20) : State :=
  let r := coreReg c (oCoreEntry + 8 * e)
  let t := getF s r 9 8
  let word := getF s r 7 0
  let s := modCore s c fun x => { x with mode := .run, armed := none, ended := false, hpHold := false, waitSince := none
                                         missed := false, considered := some s.cycle, arrAt := none }
  if !entryOk s c e then coreFault s c .boundViolation tag 0 0
  else modCore s c fun x =>
    let y := { x with task := t, fetchDead := false, fetchCause := 0, fetchDone := false, idxReq := false, idxGot := []
                      fetchPast := x.sbHold.toNat, bgr := x.bgr.filter fun r => !isIndexRead r }
    setTask y { curTask y with pc := word, fpc := word, floops := (curTask y).loops }

end Sys2Proof.Machine
end

