-- ==== Sys2Proof/Machine/Engine.lean ====
section
/-! DEFINITION. Machine/Engine.lean: the operands that commands take in the cycles of their reads (R78, R79, R89, R90,
R157), the raising of bank conflicts (R96), the begin of a command (R50) and its completion (R54). -/
namespace Sys2Proof.Machine
open Sys2Proof

/-! ## Operands taken in the cycles of their reads (R78, R79, R89, R90, R157) -/

/-- The operands of a matrix command besides whole rows: column beats, blocks drained, and for every step the latch and the
scale buffer, which it finds two cycles after its read (R157); the shadow is copied before the first step (R155). -/
def mxWants (tb b : Nat) (t : Timing) : MxCmd → List (Nat × Taken)
  | .mstream f n _ src tr swap _ =>
    let cys := (List.range n).map fun i => if groupOf f = .half then b + 4 * i else t.steps.getD i b
    let cols : List (Nat × Taken) := if !tr then [] else ((cys.zip (List.range n)).map fun (cy, i) =>
      let row := tb + src
      let u := row % 32 + i
      if groupOf f = .half then
        [(cy, .half (row / 32 * 32 + u % 2) (u / 2)), (cy, .half ((row / 32 + 1) * 32 + u % 2) (u / 2))]
      else [(cy, .col (row / 32 * 32) u)]).flatten
    ((cys.zip (List.range n)).map fun (cy, i) => (cy + 2, Taken.latch (swap && i == 0) i)) ++ cols
  | .mserial _ _ _ _ _ _ _ swap => t.steps.mapIdx fun i cy => (cy + 2, .latch (swap && i == 0) i)
  | .mdrain blk n ex _ => (List.range n).map fun q => (b + (if ex then 6 else 2) * q, .acc (blk + q))
  | _ => []

/-- The vector tiles and accumulator blocks that a vector command reads, one position in each input cycle. -/
def vxWants (s : State) (c : Nat) (b : Nat) (x : VxCmd) : List (Nat × Taken) :=
  ((vSources s c x ++ vMask s c x).map fun (d, n) => ((List.range n).map fun v =>
    let p := (vpos d v).toNat
    match d.kind with
    | 0 => [(b + v, Taken.vec p)]
    | 1 => [(b + v, Taken.acc p)]
    | _ => []).flatten).flatten

/-- Every operand that a command takes, with the cycle of its read. -/
def cmdWants (s : State) (c : Nat) (k : Cmd) (b : Nat) (t : Timing) : List (Nat × Taken) :=
  let rows : List (Nat × Taken) := (t.beats.filter fun a => !a.write).map fun a => (a.cy, .row a.row)
  match k.eng with
  | .matrix => match (decodeMatrix k.slot).getD .empty with
    | .mstream f n ab src true swap sb => mxWants k.tbase b t (.mstream f n ab src true swap sb)
    | m => rows ++ mxWants k.tbase b t m
  | .vector => match decodeVector k.slot with
    | some (some y) => rows ++ vxWants s c b y
    | _ => rows
  | _ => match (decodeMove k.slot).getD .empty with
    | .tcopy src _ m true => (List.range (m + 1)).map fun i => (b + i, .col ((k.tbase + src) / 32 * 32) i)
    | _ => rows

/-- The bytes of an operand. -/
def takenBytes (s : State) (c : Nat) : Taken → List Byte
  | .row r => rdRow s c r
  | .col r j => colBytes s c r j
  | .half r j => halfBytes s c r j
  | .vec n => rdBytes s (vtileAddr c n 0) 64
  | .acc n => rdBytes s (accAddr c n 0) 256 ++ natLe 8 (getReg s (accReg c n)).toNat
  | .latch .. => latchBytes s c

/-- Takes one operand of a command, in cycle `cy`; the shadow goes into the latch first where the command says so (R155). -/
def takeOne (s : State) (c : Nat) (k : Cmd) (w : Taken) (cy : Nat) : State :=
  let s := match w with
    | .latch true _ => swapLatch s c
    | _ => s
  let b := takenBytes s c w
  modCore s c fun x => { x with cmds := x.cmds.map fun y =>
    if y.eng = k.eng ∧ y.issued = k.issued ∧ y.idx = k.idx then { y with got := y.got ++ [(w, b, cy)] } else y }

/-- Every operand of the core's commands whose read falls in cycle `cy` is taken, before any write of that cycle (R90). -/
def takeDue (s : State) (c cy : Nat) : State :=
  let ks := (getCore s c).cmds.filter fun k => k.wants.any fun w => w.1 == cy
  let s := ks.foldl (fun s k => (k.wants.filter fun w => w.1 == cy).foldl (fun s w => takeOne s c k w.2 w.1) s) s
  if ks.isEmpty then s
  else modCore s c fun x => { x with cmds := x.cmds.map fun y => { y with wants := y.wants.filter fun w => w.1 != cy } }

/-! ## Bank conflicts (R95, R96) -/

/-- Records a bank conflict and faults the core, with the loser's tag and slot (R96, R110). -/
def raiseConflict (s : State) (c : Nat) (a : SchedAcc) : State :=
  let win := (getCore s c).sched.find? fun b => meets a b && !b.lost
  let r := coreReg c oCoreTsConflict
  let s := addF s (coreReg c oCoreTsConflictCount) 63 0 1
  let wtag := (win.map (·.tag)).getD 0#20
  let wrow := (win.map (·.row)).getD 0
  let s := if getB s r 63 then s else
    setReg s r (BitVec.ofNat 64 (2 ^ 63 + a.odd.toNat * 2 ^ 29 + a.write.toNat * 2 ^ 28
      + ((win.map fun b => engRank b.eng).getD 0) * 2 ^ 25 + engRank a.eng * 2 ^ 22 + ((win.map (·.row)).getD 0) * 2 ^ 11 + a.row))
  let s := modCore s c fun x => { x with sched := x.sched.map fun b => if b = a then { b with told := true } else b }
  if (getCore s c).mode = .faulted then s else coreFault s c .bankConflict a.tag (engRank a.eng)
    (a.row * 2 ^ 33 + wrow * 2 ^ 22 + a.write.toNat * 2 ^ 21 + a.odd.toNat * 2 ^ 20 + wtag.toNat)

/-- Raises every conflict whose cycle has come. Of two conflicts of one cycle (one on each side, or one of reads and one of
writes) the first in the order in which their accesses were scheduled is recorded: R96 does not say (DESIGN CHOICE, log 34). -/
def raiseConflicts (s : State) (c : Nat) : State :=
  ((getCore s c).sched.filter fun a => a.lost && !a.told && decide (a.cy ≤ s.cycle)).foldl (fun s a => raiseConflict s c a) s

/-! ## Beginning and completing -/

/-- Replaces the first command that satisfies `p`. -/
def updFirst (p : Cmd → Bool) (f : Cmd → Cmd) : List Cmd → List Cmd
  | [] => []
  | k :: l => if p k then f k :: l else k :: updFirst p f l

/-- Removes the first command that satisfies `p`. -/
def dropFirst (p : Cmd → Bool) : List Cmd → List Cmd
  | [] => []
  | k :: l => if p k then l else k :: dropFirst p l

/-- Class of the step cycles of a matrix command (R497). -/
def stepClass : MxCmd → Nat
  | .mserial .. => 5
  | .mstream f _ _ _ _ _ _ => match groupOf f with
    | .fp8 => 0 | .int8 => 1 | .fp4 => 2 | .fp6 => 3 | .half => 4 | .serial => 5
  | _ => 5

/-- Class of a vector opcode (R497): class F, class S, conversions, summaries. -/
def vectorClass (o : VOp) : Nat :=
  if vIsSummary o then 11
  else match o with
    | .vcvt | .vcvtp | .vmxq | .vmxd => 10
    | o => if classS o then 9 else 8

/-- The events that a command brings (R497): step cycles, WLOAD beats, vectors, tile-store beats. -/
def actBegin (s : State) (c : Nat) (k : Cmd) (t : Timing) : State :=
  let m := (decodeMatrix k.slot).getD .empty
  let s := if k.eng = .matrix then act s c (stepClass m) t.steps.length else s
  let s := if k.eng = .matrix then (match m with
    | .wload .. | .wloadScales .. | .wloadSerial .. => act s c 7 (t.beats.filter fun b => !b.write).length
    | _ => s) else s
  let s := if k.eng = .vector then (match decodeVector k.slot with
    | some (some y) => act s c (vectorClass y.op) y.n
    | _ => s) else s
  [(12, false, false), (13, true, false), (14, false, true), (15, true, true)].foldl (fun s p =>
    act s c p.1 (t.beats.filter fun b => rowSide b.row == p.2.1 && b.write == p.2.2).length) s

/-- A command begins (R50): its timing is fixed, its accesses enter the schedule, its engine is taken to its last input
beat. -/
def beginCmd (s : State) (c : Nat) (k : Cmd) : State :=
  let b := s.cycle
  let t := cmdTiming s c k b
  let s := modCore s c fun x =>
    let x := { x with cmds := updFirst (fun y => y == k) (fun y =>
                        { y with begun := some b, lastIn := t.lastIn, due := t.due, outs := t.outs, wants := cmdWants s c k b t }) x.cmds
                      sched := (accsOf s c k b).foldl addAccess x.sched, ramp := t.ramp, rampPlan := x.rampPlan ++ t.plan
                      stepCys := x.stepCys ++ t.steps }
    setEngFree x k.eng (t.lastIn + 1)
  raiseConflicts (takeDue (actBegin s c k t) c b) c

/-- The command whose effect a unit may now bring about: begun, not done, its completion cycle come, satisfying `p`. -/
def readyCmd (s : State) (c : Nat) (e : EngineId) (p : Nat → Bool) : Option Cmd :=
  if !engRuns s c then none
  else match (getCore s c).cmds.find? fun k => k.eng == e && k.begun.isSome && !k.done && decide (k.due ≤ s.cycle) with
    | some k => if p k.slot then some k else none
    | none => none

/-- Marks a command's effect as done. -/
def markDone (s : State) (c : Nat) (k : Cmd) : State :=
  modCore s c fun x => { x with cmds := updFirst (fun y => y == k) (fun y => { y with done := true }) x.cmds }

/-- The command that completes next in an engine: its effect has happened, every acknowledgment is in, its cycle has come. -/
def doneCmd (s : State) (c : Nat) (e : EngineId) : Option Cmd :=
  if !engRuns s c then none
  else (getCore s c).cmds.find? fun k => k.eng == e && k.done && k.acks == 0 && decide (k.due ≤ s.cycle)

/-- A command completes (R54): its signal is applied, and its write ranges stay pending to the end of the cycle. -/
def completeCmd (s : State) (c : Nat) (k : Cmd) : State :=
  let s := raiseConflicts s c
  let s := modCore s c fun x => { x with
    cmds := dropFirst (fun y => y == k) x.cmds
    lateW := x.lateW ++ [(k.issued, k.tag, k.writes)] }
  let s := match k.sig with
    | some (i, n) => ctrBump s c i n
    | none => s
  if k.eng = .vector then addF s (coreReg c oCoreVxStats) 31 0 1 else s

end Sys2Proof.Machine
end

