-- ==== Sys2Proof/Machine/Memory.lean ====
section
/-! DEFINITION. Machine/Memory.lean: compiled transactions from the core to the cluster port (R312, R316, R317, R320) and
what an answer does to its core (R318, R322). The gateway itself is in Gateway.lean. -/
namespace Sys2Proof.Machine
open Sys2Proof

/-! ## Leaving the core (R312, R320) -/

/-- A core makes a transaction: its memory-queue entry is taken. It leaves for the cluster port at once where the port has
room or has been reserved for it and nothing of its cluster waits; otherwise it waits in the core (R312, R320, R332). -/
def sendTxn (s : State) (c : Nat) (kept write : Bool) (addr len : Nat) (tag : BitVec 20) (dest : TxnDest) (data : List Byte) : State :=
  let f := fieldOfCore c
  let x := getField s f
  let t : Txn :=
    { id := x.txnNext, cls := 0, core := c, write := write, addr := addr, len := len, tag := tag, dest := dest
      stage := .core, left := List.range ((len + 63) / 64), data := data, status := .ok, sent := s.ns, admitted := 0, leftAt := s.cycle }
  let waiting := x.txns.any fun u => u.stage == .core && cluOf u.core == cluOf c
  let room := kept || (!waiting && portRoom s (cluOf c) 1 (txnBeats t))
  let t := if room then { t with stage := .port } else t
  let s := setField s f { x with txns := x.txns ++ [t], txnNext := x.txnNext + 1 }
  let s := modCore s c fun y => { y with outst := y.outst + 1 }
  addF s (coreReg c oCoreMemStats) 63 32 1

/-- Sends n granule transactions, or one tile transaction for sixteen (R44). -/
def sendGranules (s : State) (c : Nat) (write : Bool) (addr n : Nat) (tag : BitVec 20) (dest : Nat → TxnDest)
    (data : Nat → List Byte) : State :=
  if n = 16 then sendTxn s c write write addr 1024 tag (dest 0) (((List.range 16).map data).flatten)
  else (List.range n).foldl (fun s i => sendTxn s c write write (addr + 64 * i) 64 tag (dest i) (data i)) s

/-- Transactions of a run of n granules (R44). -/
def txnCount (n : Nat) : Nat := if n = 16 then 1 else n

/-! ## Index tensors (R317) -/

/-- Index k in the index rows read. -/
def indexOf (rows : List (List Byte)) (k : Nat) : Nat := leNat (((rows.getD (k / 8) []).drop (4 * (k % 8))).take 4)

/-- Addresses of the indices, or the kind and address of the first failure (R317). -/
def indexAddrs (s : State) (c adr : Nat) (idx : List Nat) : Except (Nat × Nat) (List Nat) :=
  let r := coreReg c (oCoreIdx + 8 * adr)
  let base := adrVal s c adr
  idx.foldl (fun acc i => match acc with
    | .error e => .error e
    | .ok l =>
      let a := base + 64 * (i * 2 ^ getF s r 39 36)
      if getF s r 31 0 ≤ i then .error (1, a)
      else if inOwnField c a 1 then .ok (l ++ [a]) else .error (2, a)) (.ok [])

/-! ## The move commands that write memory (R44, R80, R319) -/

/-- Bytes of granule k of a command, from two rows (R44). -/
def granuleRows (s : State) (c : Nat) (k : Cmd) (src i : Nat) : List Byte :=
  cmdRow s c k (k.tbase + src + 2 * i) ++ cmdRow s c k (k.tbase + src + 2 * i + 1)

/-- Sets how many acknowledgments a command waits for. -/
def setAcks (s : State) (c : Nat) (k : Cmd) (n : Nat) : State :=
  modCore s c fun x => { x with cmds := updFirst (fun y => y == k) (fun y => { y with acks := n }) x.cmds }

/-- An MPUT's rows are read and its transactions leave the core (R80), into the room reserved at its begin (R320). -/
def mputEffect (s : State) (c : Nat) (k : Cmd) (src g : Nat) : State :=
  let n := g + 1
  let data := (List.range n).map fun i => granuleRows s c k src i
  let s := markDone (setAcks s c k (txnCount n)) c { k with acks := txnCount n }
  sendGranules s c true k.addr n k.tag (fun _ => .put k.issued) (fun i => data.getD i [])

/-- Sets the granules that a command has still to send. -/
def setSends (s : State) (c : Nat) (k : Cmd) (l : List (Nat × Nat)) : State :=
  modCore s c fun x => { x with cmds := updFirst (fun y => y == k) (fun y => { y with sends := l, outN := 0 }) x.cmds }

/-- An MSCATTER's checks (R319): a failed check sends nothing, and the command never completes. Where all pass, granule i
leaves in the cycle in which its second row is there, 2i + 2 cycles after the check. -/
def mscatterEffect (s : State) (c : Nat) (k : Cmd) (adr idx m : Nat) : State :=
  let n := m + 1
  let rows := (List.range (idxRows n)).map fun i => cmdRow s c k (k.tbase + idx + i)
  match indexAddrs s c adr ((List.range n).map (indexOf rows)) with
  | .error (kind, a) =>
    let s := coreFault (memFault s c kind a) c .boundViolation k.tag 3 (memDetail kind a)
    modCore s c fun x => { x with cmds := dropFirst (fun y => y == k) x.cmds }
  | .ok as =>
    let l := (as.zip (List.range n)).map fun (a, i) => (k.due + 2 * i + 2, a)
    let s := setSends (adrAdvance s c adr) c k l
    let k := { k with sends := l, outN := 0 }
    markDone (setAcks s c k n) c { k with acks := n }

/-- The next granule of an MSCATTER leaves (R319), with the rows it has read. -/
def scatterOne (s : State) (c : Nat) (k : Cmd) (src : Nat) (p : Nat × Nat) : State :=
  let k' := (getCore s c).cmds.find? fun y => y.eng == k.eng && y.issued == k.issued && y.idx == k.idx
  match k' with
  | none => s
  | some y =>
    let d := granuleRows s c y src y.outN
    let s := modCore s c fun x => { x with cmds := updFirst (fun z => z == y) (fun z => { z with sends := z.sends.tail, outN := z.outN + 1 }) x.cmds }
    sendTxn s c true true p.2 64 y.tag (.put y.issued) d

/-- The granules of MSCATTERs whose cycle has come leave the core (R319). -/
def scatterDue (s : State) (c : Nat) : State :=
  ((getCore s c).cmds.filter fun k => k.sends.any fun p => decide (p.1 ≤ s.cycle)).foldl (fun s k =>
    match (decodeMove k.slot).getD .empty with
    | .mscatter src _ _ _ => (k.sends.filter fun p => decide (p.1 ≤ s.cycle)).foldl (fun s p => scatterOne s c k src p) s
    | _ => s) s

/-! ## Overlays (R63) -/

/-- The reads that cover n granules from an address: tiles of 1 KiB, then single granules (R312). R63 leaves the cut open
(DESIGN CHOICE, log 116). -/
def ovlCut : Nat → Nat → Nat → List (Nat × Nat)
  | 0, _, _ => []
  | fuel + 1, a, n =>
    if n = 0 then []
    else if 16 ≤ n then (a, 1024) :: ovlCut fuel (a + 1024) (n - 16)
    else (a, 64) :: ovlCut fuel (a + 64) (n - 1)

/-- The overlay reads of a decision point: address, bytes, first absolute word, bytes before it, words. -/
def ovlParts (s : State) (c : Nat) (w : W256) : List (Nat × Nat × Nat × Nat × Nat) :=
  let r := coreReg c (oCoreOvl + 8 * wOvlIdx w)
  let a := getF s r 47 0
  let e := a + 32 * (getF s r 63 56 + 1)
  let word := taskIbase s c (getCore s c).task + getF s r 55 48
  let (a0, n) := ovlSpan s c w
  (ovlCut (n + 1) a0 n).map fun (p, len) =>
    let lo := max p a
    (p, len, word + (lo - a) / 32, lo - p, (min (p + len) e - lo) / 32)

/-- Overlay reads leave as long as the core's memory queue has an entry (R312). -/
def pumpOverlay : Nat → State → Nat → State
  | 0, s, _ => s
  | fuel + 1, s, c =>
    let x := getCore s c
    match x.ovlLeft with
    | [] => s
    | (a, len, word, skip, n) :: l =>
      if memHeld x < 32 then
        let s := setCore s c { x with ovlLeft := l, ovlOut := x.ovlOut + 1 }
        pumpOverlay fuel (sendTxn s c false false a len x.dpTag (.overlay word skip n) []) c
      else s

/-- The overlay of a decision point is asked for: nwords_m1 + 1 words (R63). -/
def sendOverlay (s : State) (c : Nat) (w : W256) : State :=
  let l := ovlParts s c w
  pumpOverlay 32 (modCore s c fun x => { x with ovlLeft := l, ovlOut := 0 }) c

/-! ## Answers -/

/-- One transaction of the core is answered: its memory-queue entry is free again. -/
def txnDone (s : State) (c : Nat) : State := modCore s c fun x => { x with outst := x.outst - 1 }

/-- The rows of a fill go to the combiner as background writes (R93). -/
def fillRows (s : State) (c key row : Nat) (bytes : List Byte) : State :=
  (List.range (bytes.length / 32)).foldl (fun s i =>
    modCore s c fun x => { x with bgw := x.bgw ++ [⟨.fill key, row + i, wholeRow ((bytes.drop (32 * i)).take 32)⟩] }) s

/-- Marks a fill whose increment never comes: its read met poison (R322). -/
def voidFill (s : State) (c task born : Nat) : State :=
  modCore s c fun x =>
    { x with tasks := x.tasks.set task { taskAt x task with
        fills := (taskAt x task).fills.map fun f => if f.at_ = born ∧ f.rowsLeft ≠ 0 then { f with cancelled := true } else f } }

/-- Slot code of a transaction's command: fetch 5, move 3, word 0 (R82). -/
def txnSlot (t : Txn) : Nat := match t.dest with
  | .fill .. => 5 | .put _ => 3 | _ => 0

/-- A compiled transaction that its access table refuses (R461): no rows land, no acknowledgment is given, the core
faults. -/
def txnDenied (s : State) (t : Txn) : State :=
  let s := coreFault (txnDone s t.core) t.core .accessDenied t.tag (txnSlot t) (t.write.toNat * 2 ^ 58 + t.addr)
  match t.dest with
  | .fill task born _ => voidFill s t.core task born
  | _ => s

/-- A read's data lands at its core (R313, R318, R322). A poisoned granule lands as zeros and faults the core. -/
def landRead (s : State) (t : Txn) : State :=
  let c := t.core
  let s := txnDone s c
  let s := if t.status = .poisoned then coreFault (memFault s c 3 t.bad) c .eccUncorrected t.tag (txnSlot t) (chanOfAddr t.bad * 2 ^ 48 + t.bad)
    else s
  match t.dest with
  | .fill task born row =>
    let s := if t.status = .ok then s else voidFill s c task born
    if (taskAt (getCore s c) task).fills.any fun f => f.at_ == born then fillRows s c born row t.data else s
  | .overlay word skip n =>
    if t.status = .ok then
      modCore (wrBytes s (imemAddr c word) ((t.data.drop skip).take (32 * n))) c fun x => { x with ovlOut := x.ovlOut - 1 }
    else s
  | _ => s

/-- A write's acknowledgment reaches its core (R80). -/
def landAck (s : State) (t : Txn) : State :=
  let s := txnDone s t.core
  match t.dest with
  | .put i => modCore s t.core fun x => { x with cmds := x.cmds.map fun k =>
      if k.eng == .move && k.issued == i && decide (0 < k.acks) then { k with acks := k.acks - 1, due := s.cycle } else k }
  | _ => s

end Sys2Proof.Machine
end

