-- ==== Sys2Proof/Machine/Fetch.lean ====
section
/-! DEFINITION. Machine/Fetch.lean: the fetch engine and the run-ahead ring (R70 to R74, R105, R316 to R318). -/
namespace Sys2Proof.Machine
open Sys2Proof

/-! ## The ring (R70) -/

/-- CORE_RINGt.en. -/
def ringEn (s : State) (c t : Nat) : Bool := getB s (coreReg c (oCoreRing + 8 * t)) 19
/-- Fill counter. -/
def ringCtr (s : State) (c t : Nat) : Nat := getF s (coreReg c (oCoreRing + 8 * t)) 18 14
/-- Slots of the ring. -/
def ringSize (s : State) (c t : Nat) : Nat := getF s (coreReg c (oCoreRing + 8 * t)) 13 10 + 1
/-- First absolute row of a ring slot. -/
def slotRow (s : State) (c t slot : Nat) : Nat :=
  taskTbase s c t + 32 * (getF s (coreReg c (oCoreRing + 8 * t)) 5 0 + slot)

/-- May the fetch engine act in this cycle (R71)? -/
def fetchReady (s : State) (c : Nat) : Bool :=
  let x := getCore s c
  s.clocksOn && (x.mode == .run || x.mode == .drain || x.mode == .held) && !x.fetchDead && x.fetched != some s.cycle &&
    !coreFenced s c && !conflictNow s c

/-- The word at the fetch pointer, if it lies in the task's range. -/
def fetchWord (s : State) (c : Nat) : Option W256 :=
  let x := getCore s c
  let p := (curTask x).fpc
  if p < taskWords s c x.task then some (taskWord s c x.task p) else none

/-- Is a word's encoding legal (R46), as the fetch engine sees it? It does not look at what may have changed by the time the
sequencer considers the word. -/
def wordLegal (s : State) (c : Nat) (w : W256) : Bool := (illegalPart s c w false).isNone

/-- The ring slot of a task's next fill: its k-th fetch-side command since the ring was enabled uses slot k mod size (R70). -/
def nextRingSlot (s : State) (c t : Nat) : Nat := (taskAt (getCore s c) t).nextSlot % ringSize s c t

/-- The engine holds with a stop cause. -/
def fetchHold (s : State) (c cause : Nat) : State := modCore s c fun x => { x with fetchCause := cause, fetched := some s.cycle }

/-- A fetch-side fault: the engine sends nothing and stops, the core faults with slot fetch (R70, R105). -/
def fetchFault (s : State) (c : Nat) (n : FaultName) (tag : BitVec 20) (other : Nat) : State := coreFault s c n tag 5 other

/-- A new fill takes the next ring slot (R70). `rows` is how many rows land. -/
def newFill (s : State) (c : Nat) (tag : BitVec 20) (rows : Nat) : State :=
  modCore s c fun x =>
    let t := curTask x
    let slot := nextRingSlot s c x.task
    let row := slotRow s c x.task slot
    let f : Fill := { slot := slot, tag := tag, at_ := s.cycle, rowsLeft := rows, lo := row, hi := row + 31
                      provisional := x.snap.isSome, deferred := x.fetchPast.toNat, counted := false, cancelled := false }
    setTask x { t with nextSlot := t.nextSlot + 1, fills := t.fills ++ [f] }

/-- Ring slots of the running task that the fetch engine may not yet fill: those that hold a fill, and those that an RPOP has
freed in this cycle (R72). -/
def ringUsed (x : CoreSt) (cy : Nat) : Nat :=
  (curTask x).fills.length + (match x.popped with
    | some (t, k, n) => if t = cy ∧ k = x.task then n else 0
    | none => 0)

/-- The gate of a fetch-side command is open (R71). -/
def gateOpen (s : State) (c : Nat) : Gate → Bool
  | none => true
  | some (i, v) => waitMet (ctrVal s c i) (BitVec.ofNat 16 v) 0

/-- The neighbouring core in a direction (0 north, 1 east, 2 south, 3 west), if the wafer has one. -/
def neighbour (c dir : Nat) : Option Nat :=
  let gx := c % 1024
  let gy := c / 1024
  match dir with
  | 0 => if gy = 0 then none else some (c - 1024)
  | 1 => if gx = 1023 then none else some (c + 1)
  | 2 => if gy = 1023 then none else some (c + 1024)
  | _ => if gx = 0 then none else some (c - 1)

/-- Moves the fetch pointer by the loop field, on the engine's own loop counters (R57, R71). Returns none where the word
ends its run: END, a decision point or the range's end are handled by the caller. -/
def fetchNext (s : State) (c : Nat) (w : W256) : State :=
  modCore s c fun x =>
    let t := curTask x
    let lvl := wLoopLvl w
    let set_ (v : W32) (p : Nat) : TaskSt := { t with floops := t.floops.set lvl v, fpc := p }
    let t := match (if wDp w then 0 else wLoopOp w) with
      | 1 => set_ (BitVec.ofNat 32 (wLoopArg w)) (t.fpc + 1)
      | 2 => set_ (BitVec.ofNat 32 (getF s (coreReg c (oCoreLoopinit + 8 * (wLoopArg w % 4))) 31 0)) (t.fpc + 1)
      | 3 =>
        let n := t.floops.getD lvl 0
        if n = 0#32 then { t with fpc := t.fpc + 1 } else set_ (n - 1#32) (t.fpc - wLoopArg w % 256)
      | 4 => { t with fpc := wLoopArg w % 256 }
      | _ => { t with fpc := t.fpc + 1 }
    { setTask x t with fetchDone := false, fetchCause := 0 }

/-- An LBACK of the fetch engine would lead below word 0: it has reached the end of the task's range (R71). -/
def fetchUnder (s : State) (c : Nat) (w : W256) : Bool :=
  let t := curTask (getCore s c)
  !wDp w && wLoopOp w == 3 && t.floops.getD (wLoopLvl w) 0 != 0#32 && decide (t.fpc < wLoopArg w % 256)

/-- The fetch engine goes on past a word (R71, R74): it stops at END and at the ends of the range, holds at an unhinted decision point, and continues
into the block of a valid hint provisionally. -/
def fetchPassWord (s : State) (c : Nat) (w : W256) : State :=
  let x := getCore s c
  if wDp w then
    let e := coreReg c (oCoreEntry + 8 * wHint w)
    if wHintEn w && entryOk s c (wHint w) && getF s e 9 8 == x.task then
      modCore s c fun x =>
        let t := curTask x
        let past := x.fetchPast + (wSb w).toNat
        let sn : FetchSnap := { hint := wHint w, fpc := t.fpc, floops := t.floops, nextSlot := t.nextSlot, past := past
                                adrs := (List.range 16).map fun i => getReg s (coreReg c (oCoreAdr + 8 * i)) }
        { setTask x { t with fpc := getF s e 7 0 } with snap := some sn, fetchDone := false, fetchCause := 0, fetchPast := past }
    else modCore s c fun x => { x with fetchDone := true, fetchCause := 4 }
  else if wLoopOp w = 5 || fetchUnder s c w then modCore s c fun x => { x with fetchDone := true, fetchCause := 5 }
  else
    let s := if wSb w then modCore s c fun x => { x with fetchPast := x.fetchPast + 1 } else s
    fetchNext s c w

/-- What holds a fetch-side command: ring full 1, gate 2, memory queue 3 (R71). -/
def fetchBlocked (s : State) (c : Nat) (gate : Gate) (txns : Nat) : Option Nat :=
  let x := getCore s c
  if ringSize s c x.task ≤ ringUsed x s.cycle then some 1
  else if !gateOpen s c gate then some 2
  else if 32 < memHeld x + txns then some 3
  else none

/-- The rows of the next ring slot, as a write range. -/
def nextSlotRange (s : State) (c : Nat) : Range :=
  let x := getCore s c
  let row := slotRow s c x.task (nextRingSlot s c x.task)
  ⟨.tile, row, row + 31⟩

/-- RFILL (R44, R45, R316): the address check, the descriptor's advance, the transactions. An error is what it holds on.
R76 and R316 do not order their checks in the fetch engine: RANGE_HAZARD comes first here, as its place among R48's checks
is the sequencer's alone (DESIGN CHOICE, log 115). -/
def doRfill (s : State) (c : Nat) (tag : BitVec 20) (gate : Gate) (adr gm ofs : Nat) : Except Nat State :=
  let n := gm + 1
  match fetchBlocked s c gate (txnCount n) with
  | some k => .error k
  | none =>
    let x := getCore s c
    let a := adrVal s c adr + 64 * ofs
    match pendingHit x [nextSlotRange s c] with
    | some o => .ok (fetchFault s c .rangeHazard tag o.toNat)
    | none =>
      if !inOwnField c a n then .ok (fetchFault (memFault s c 2 (firstOutside c a n)) c .boundViolation tag (memDetail 2 (firstOutside c a n)))
      else
        let row := slotRow s c x.task (nextRingSlot s c x.task)
        let born := s.cycle
        let s := newFill (adrAdvance s c adr) c tag (2 * n)
        .ok (sendGranules s c false a n tag (fun i => .fill x.task born (row + 2 * i)) fun _ => [])

/-- RGATHER (R317, R318): asks for its index rows; once they are read, checks every index before it sends anything. -/
def doRgather (s : State) (c : Nat) (tag : BitVec 20) (gate : Gate) (adr idx cm : Nat) : Except Nat State :=
  let n := cm + 1
  let x := getCore s c
  let tb := taskTbase s c x.task
  match fetchBlocked s c gate n with
  | some k => .error k
  | none =>
    let rows := tileR idx (idxRows n)
    if !tileInBound [rows] (taskTsize s c x.task) then .ok (fetchFault s c .boundViolation tag 0)
    else match pendingHit x [absR tb rows, nextSlotRange s c] with
      | some o => .ok (fetchFault s c .rangeHazard tag o.toNat)
      | none =>
        if !x.idxReq then
          .ok (modCore s c fun x => { x with idxReq := true, idxGot := [], fetched := some s.cycle, fetchCause := 0
                                             bgr := x.bgr ++ (List.range (idxRows n)).map fun i => ⟨.index x.task i, tb + idx + i⟩ })
        else if x.idxGot.length < idxRows n then .error 0
        else
          let got := (List.range (idxRows n)).map fun i => ((x.idxGot.find? fun g => g.1 = i).map (·.2)).getD []
          match indexAddrs s c adr ((List.range n).map (indexOf got)) with
          | .error (kind, a) => .ok (fetchFault (memFault s c kind a) c .boundViolation tag (memDetail kind a))
          | .ok as =>
            let row := slotRow s c x.task (nextRingSlot s c x.task)
            let born := s.cycle
            let s := newFill (adrAdvance s c adr) c tag (2 * n)
            let s := modCore s c fun x => { x with idxReq := false, idxGot := [] }
            .ok ((as.zip (List.range n)).foldl (fun s (a, i) =>
              sendTxn s c false false a 64 tag (.fill x.task born (row + 2 * i)) []) s)

/-- An RPULL from a fenced neighbour completes with TARGET_FENCED: a read returns zeros (R28, R246; log 122). -/
def pullFenced (s : State) (c nb : Nat) (tag : BitVec 20) : State :=
  let x := getCore s c
  let row := slotRow s c x.task (nextRingSlot s c x.task)
  let born := s.cycle
  let s := queueFault s (fieldOfCore nb) { coreEvent s nb .targetFenced tag 0 nb with unit := 7, loc := 2 ^ 16 + x.task }
  modCore (newFill s c tag 32) c fun x => { x with
    bgw := x.bgw ++ (List.range 32).map fun i => ⟨.fill born, row + i, wholeRow (List.replicate 32 0#8)⟩ }

/-- RPULL (R44, R105): the neighbour's rows are asked for as background reads of its store, and land here. -/
def doRpull (s : State) (c : Nat) (tag : BitVec 20) (gate : Gate) (dir src : Nat) : Except Nat State :=
  match fetchBlocked s c gate 0 with
  | some k => .error k
  | none =>
    let x := getCore s c
    match pendingHit x [nextSlotRange s c] with
    | some o => .ok (fetchFault s c .rangeHazard tag o.toNat)
    | none => match neighbour c dir with
      | none => .ok (fetchFault s c .boundViolation tag 0)
      | some nb =>
        let t := (getCore s nb).task
        if coreFenced s nb then .ok (pullFenced s c nb tag)
        else if 32 * src + 31 < taskTsize s nb t then
          let row := taskTbase s nb t + 32 * src
          let mine := slotRow s c x.task (nextRingSlot s c x.task)
          let born := s.cycle
          let s := newFill s c tag 32
          .ok (modCore s nb fun y => { y with
            bgr := y.bgr ++ (List.range 32).map fun i => ⟨.rpull ((dir + 2) % 4) c born (mine + i), row + i⟩ })
        else .ok (fetchFault s c .boundViolation tag 0)

/-- The fetch engine performs the fetch-side command of a word, if it has one (R71, R73). -/
def fetchCmd (s : State) (c : Nat) (w : W256) : Except Nat State :=
  let x := getCore s c
  let m := slotX w
  if x.fetchDone || !isFetchSide m then .ok s
  else if !ringEn s c x.task then .ok (fetchFault s c .boundViolation (wTag w) 0)
  else let s := act s c 19 1
  match m with
    | .rfill g adr gm ofs => doRfill s c (wTag w) g adr gm ofs
    | .rgather g adr idx cm => doRgather s c (wTag w) g adr idx cm
    | .rpull g dir src => doRpull s c (wTag w) g dir src
    | _ => .ok s

/-- The fetch engine acts on the word at its pointer (R71): it holds with a stop cause, or performs the command and moves
on. At the second decision point that it reaches while provisional it holds before that word's own fetch-side command
(DESIGN CHOICE, log 39). -/
def fetchStep (s : State) (c : Nat) : State :=
  let x := getCore s c
  match fetchWord s c with
  | none => fetchHold s c 5
  | some w =>
    if !wordLegal s c w then fetchHold s c 8
    else if x.fetchCause == 7 || (x.fetchDone && (x.fetchCause == 4 || x.fetchCause == 5)) then s
    else if wDp w && x.snap.isSome then fetchHold s c 6
    else match fetchCmd s c w with
      | .error k => fetchHold s c k
      | .ok s' =>
        let y := getCore s' c
        if y.fetchDead then s'
        else if y.idxReq then s'
        else
          let s' := modCore s' c fun y => { y with fetched := some s.cycle, fetchDone := true }
          if wSb w && getB s' (modReg oModCkptCtl) 0 && getF s' (modReg oModCkptCtl) 15 8 == wPhase w then modCore s' c fun y => { y with fetchCause := 7 }
          else fetchPassWord s' c w

/-- Releases up to n of the oldest filled slots (R72). -/
def popFills : Nat → List Fill → List Fill
  | 0, l => l
  | _, [] => []
  | n + 1, f :: l => if f.counted then popFills n l else f :: l

/-- A fill's increment is applied: every row has landed, nothing withholds it (R70, R72). -/
def fillDue (f : Fill) : Bool := f.rowsLeft == 0 && !f.counted && !f.provisional && f.deferred == 0 && !f.cancelled

/-- Applies the increments of the fills of a task that are due, oldest first; cancelled fills that have landed are
discarded (R70, R74). -/
def landFills (s : State) (c t : Nat) : State :=
  let x := getCore s c
  let fs := (taskAt x t).fills
  let n := (fs.filter fillDue).length
  let fs := (fs.map fun f => if fillDue f then { f with counted := true } else f).filter fun f => !(f.cancelled && f.rowsLeft == 0)
  let s := setCore s c { x with tasks := x.tasks.set t { taskAt x t with fills := fs } }
  let s := ((taskAt x t).fills.filter fillDue).foldl (fun s f => trace s c 0x0A (some f.tag) f.slot) s
  if n = 0 then s else ctrBump s c (ringCtr s c t) n

end Sys2Proof.Machine
end

