-- ==== Sys2Proof/Machine/Lanes.lean ====
section
/-! DEFINITION. Machine/Lanes.lean: channel entries, what stands at the arrival queues, the lanes and their next rows (R287
to R296, R307), as far as the ports and the combiner must know of them. -/
namespace Sys2Proof.Machine
open Sys2Proof

/-! ## Channel entries (R307) -/

/-- CORE_CHANc. -/
def chanReg (c ch : Nat) : Nat := coreReg c (oCoreChan + 8 * ch)
/-- CORE_CHMSGc. -/
def chMsg (c ch : Nat) : Nat := coreReg c (oCoreChmsg + 0x10 * ch)
/-- CORE_CHSTALLc. -/
def chStall (c ch : Nat) : Nat := coreReg c (oCoreChstall + 0x10 * ch)
/-- CORE_CHSTATc. -/
def chStat (c ch : Nat) : Nat := coreReg c (oCoreChstat + 8 * ch)
/-- First hop of a send entry. -/
def chDir (s : State) (c ch : Nat) : Nat := getF s (chanReg c ch) 61 60
/-- Counter of a receive entry. -/
def chCtr (s : State) (c ch : Nat) : Nat := getF s (chanReg c ch) 61 57
/-- Rows of a receive entry's buffer. -/
def chSize (s : State) (c ch : Nat) : Nat := getF s (chanReg c ch) 49 41 + 1
/-- First row of it. -/
def chBase (s : State) (c ch : Nat) : Nat := getF s (chanReg c ch) 40 30
/-- Contributors of a combining entry. -/
def chN (s : State) (c ch : Nat) : Nat := getF s (chanReg c ch) 55 50 + 1
/-- A combining entry sums exactly. -/
def chExact (s : State) (c ch : Nat) : Bool := getB s (chanReg c ch) 56

/-! ## Arrival queues and lanes (R287 to R290) -/

/-- The head row of an arrival queue, if it may leave. -/
def queueHead (s : State) (c dir : Nat) : Option MBeat :=
  match (getCore s c).aq.getD dir [] with
  | r :: _ => if r.entered < s.cycle then some r.beat else none
  | [] => none

/-- The receive channel that the other lane holds: also in the cycle in which its message's last row leaves (R288). -/
def otherChan (x : CoreSt) (lane cy : Nat) : Option Nat :=
  match x.lanes.getD (1 - lane) none with
  | some l => some l.chan
  | none => if cy < x.laneFree.getD (1 - lane) 0 then some (x.laneLast.getD (1 - lane) 64) else none

/-- A lane is free in this cycle. -/
def laneIdle (s : State) (c lane : Nat) : Bool :=
  let x := getCore s c
  (x.lanes.getD lane none).isNone && decide (x.laneFree.getD lane 0 ≤ s.cycle)

/-- The queue whose message a free lane takes: a first row at the head, its channel not held, entered earliest, ties in the
order of the queues (R288). -/
def takeDir (s : State) (c lane : Nat) : Option Nat :=
  let x := getCore s c
  (List.range 4).foldl (fun best d => match queueHead s c d with
    | some b =>
      if !b.first || otherChan x lane s.cycle == some b.dstChan then best
      else
        let t := (x.aq.getD d []).head?.elim 0 (·.entered)
        match best with
        | none => some d
        | some e => if t < (x.aq.getD e []).head?.elim 0 (·.entered) then some d else best
    | none => best) none

/-- Messages of the round already landed or on their way to land (R294). -/
def roundTaken (s : State) (c ch : Nat) : Nat :=
  (getF s (chStat c ch) 7 0 + ((getCore s c).combs.filter fun r => r.chan == ch && r.last).length) % chN s c ch

/-- A combined write to a row has not yet landed (R296). -/
def combPending (s : State) (c row : Nat) : Bool := (getCore s c).combs.any fun r => r.row == row

/-- Does the row pass the length check (R289)? -/
def lengthOk (s : State) (c : Nat) (l : Lane) (b : MBeat) : Bool :=
  decide (l.rows + 1 ≤ chSize s c l.chan) && !(chanRole s c l.chan == 3 && b.last && decide (l.rows + 1 < chSize s c l.chan))

/-- The row to which a lane's next row goes. -/
def laneRow (s : State) (c : Nat) (l : Lane) : Nat :=
  chBase s c l.chan + (if chanRole s c l.chan = 2 then (getF s (chStat c l.chan) 29 21 + l.rows) % chSize s c l.chan else l.rows)

/-- The row that a lane would move in this cycle, if it passes its checks and no combined write holds it back. -/
def laneNext (s : State) (c lane : Nat) : Option (Lane × MBeat) :=
  match (getCore s c).lanes.getD lane none with
  | some l =>
    if s.cycle < l.next ∨ l.drop = true then none
    else match queueHead s c l.dir with
      | some b => if b.ok && lengthOk s c l b && !combPending s c (laneRow s c l) then some (l, b) else none
      | none => none
  | none => none

/-- A row of a plain landing waits for the combiner in this cycle, or a free lane is still to take a message (R99, R288). -/
def arrivalWaits (s : State) (c : Nat) : Bool :=
  (List.range 2).any fun i => (laneNext s c i).any (fun p => p.1.plain) || (laneIdle s c i && (takeDir s c i).isSome)

/-- A combined row waits for the combiner in this cycle (R99, R296). -/
def combinedWaits (s : State) (c : Nat) : Bool := (getCore s c).combs.any fun r => decide (r.at_ ≤ s.cycle)

/-- A combining lane's row waits to read its destination row on a side (R94, R296). -/
def combReadWaits (s : State) (c : Nat) (odd : Bool) : Bool :=
  (List.range 2).any fun i => (laneNext s c i).any fun p => !p.1.plain && rowSide (laneRow s c p.1) == odd

end Sys2Proof.Machine
end

