-- ==== Sys2Proof/Machine/TileOps.lean ====
section
/-! DEFINITION. Machine/TileOps.lean: background accesses and the write combiner (R93, R94, R98 to R103), and writes of
the tile store by other masters. -/
namespace Sys2Proof.Machine
open Sys2Proof

/-! ## Acceptance (R99) -/

/-- Writes accepted so far in this cycle. -/
def acceptedNow (s : State) (c : Nat) : Nat :=
  let x := getCore s c
  if x.combCy = some s.cycle then x.combN else 0

/-- The oldest entry that no write has yet forced is made ready for a write that waits, named by class and row; a write
that has forced one forces no other (R99). -/
def forceOldest (o : Nat × Nat) (l : List CombEntry) : List CombEntry :=
  if l.any fun e => e.owner == some o then l
  else match l with
    | [] => []
    | e :: l => if e.forced then e :: forceOldest o l else { e with forced := true, owner := some o } :: l

/-- The write of a class and row waits no more: no entry is kept for it. -/
def dropOwner (x : CoreSt) (o : Nat × Nat) : CoreSt :=
  { x with combKept := x.combKept.filter (· != o), comb := x.comb.map fun e => if e.owner == some o then { e with owner := none } else e }

/-- The combiner is offered a write of a class: it merges, opens an entry (one kept for it, or a free one that is kept for no
other), or forces the oldest entry ready, which is then kept for it; a refusal ends the cycle's acceptance (R99). Answers
whether it was accepted. -/
def acceptWrite (s : State) (c rank row : Nat) (bytes : List (Option Byte)) : Bool × State :=
  let x := getCore s c
  let n := acceptedNow s c
  let took (x : CoreSt) : CoreSt := { dropOwner x (rank, row) with combCy := some s.cycle, combN := n + 1 }
  if 2 ≤ n then (false, s)
  else if x.comb.any fun e => e.row == row then
    let s := modCore (keepRow s c row) c fun x =>
      let y := took x
      { y with comb := y.comb.map fun e => if e.row = row then { e with bytes := mergeBytes e.bytes bytes, last := s.cycle } else e }
    (true, addF s (coreReg c oCoreTsCombine) 63 32 1)
  else if x.combKept.contains (rank, row) || decide (x.comb.length + x.combKept.length < 8) then
    (true, modCore (keepRow s c row) c fun x =>
      let y := took x
      { y with comb := y.comb ++ [{ row := row, bytes := bytes, last := s.cycle, forced := false }] })
  else (false, setCore s c { x with combCy := some s.cycle, combN := 2, comb := forceOldest (rank, row) x.comb })

/-- Order of the classes of R99 among the writes that wait. -/
def bgRank : BgSrc → Nat
  | .fill _ => 0 | .steward _ => 3 | .master => 4

/-- The first write offered: the lowest class, oldest first. -/
def firstWrite (l : List BgWrite) : Option BgWrite :=
  match l.find? fun w => bgRank w.src == 0 with
  | some w => some w
  | none => match l.find? fun w => bgRank w.src == 3 with
    | some w => some w
    | none => l.head?

/-- Removes the first occurrence. -/
def dropOne [DecidableEq α] (a : α) : List α → List α
  | [] => []
  | b :: l => if a = b then l else b :: dropOne a l

/-- A row of a fill has landed. Once the last one has, the slot's range stays pending to the end of the cycle (R76). -/
def fillLanded (x : CoreSt) (born : Nat) : CoreSt :=
  let last := (x.tasks.map (·.fills)).flatten.filter fun f => f.at_ == born && f.rowsLeft == 1
  { x with lateW := x.lateW ++ last.map fun f => (f.at_, f.tag, [⟨.tile, f.lo, f.hi⟩])
           tasks := x.tasks.map fun t => { t with fills := t.fills.map fun f => if f.at_ = born then { f with rowsLeft := f.rowsLeft - 1 } else f } }

/-- What the source of an accepted write does. -/
def sourceDone (s : State) (c : Nat) (w : BgWrite) : State :=
  match w.src with
  | .fill born => modCore s c fun x => fillLanded x born
  | .steward seq => modClu s (cluOf c) fun y => { y with
      tsstOut := y.tsstOut.filter (· ≠ seq)
      incs := y.incs.map fun i => if seq < i.after then { i with due := max i.due (s.cycle + 1) } else i }
  | .master => s

/-- The digest of an accepted fill row or TSST; writes by other masters are not digested (R445, R447). -/
def digestAccepted (s : State) (c : Nat) (w : BgWrite) : State :=
  match w.src with
  | .fill born => match ((getCore s c).tasks.map (·.fills)).flatten.find? fun f => f.at_ == born with
    | some f => digestWrite s c w.row w.bytes f.deferred 4 f.tag none
    | none => s
  | .steward _ => digestWrite s c w.row w.bytes 0 7 0#20 none
  | .master => s

/-- The first waiting write is offered to the combiner; a steward's or another master's only where no mesh arrival and no
combined row comes before it in this cycle (R99, R243). A row of a fill that a redirect cancelled is discarded (R74). -/
def offerWrite (s : State) (c : Nat) : State :=
  match firstWrite (getCore s c).bgw with
  | none => s
  | some w =>
    let gone := match w.src with
      | .fill born => !(getCore s c).tasks.any fun t => t.fills.any fun f => f.at_ == born
      | _ => false
    if gone then modCore s c fun x => { dropOwner x (bgRank w.src, w.row) with bgw := dropOne w x.bgw }
    else if bgRank w.src ≠ 0 && (arrivalWaits s c || combinedWaits s c) then s
    else match acceptWrite s c (bgRank w.src) w.row w.bytes with
      | (true, s) => modCore (sourceDone (digestAccepted s c w) c w) c fun x => { x with bgw := dropOne w x.bgw }
      | (false, s) => s

/-- Do background accesses go on: the core clock runs and the core is not fenced (R93, R108, R305)? -/
def bgRuns (s : State) (c : Nat) : Bool := s.clocksOn && !coreFenced s c

/-- COMBINER_ACCEPT (R99): up to two waiting background writes enter the combiner. -/
def execCombinerAccept (c : CoreId) (s : State) : Out :=
  if bgRuns s c then .next (offerWrite (offerWrite s c) c) else .next s

/-! ## Flushes (R100) -/

/-- Is an entry ready? -/
def entryReady (cy : Nat) (e : CombEntry) : Bool := e.forced || e.bytes.all (·.isSome) || decide (e.last + 17 ≤ cy)

/-- A side's write port is free for a flush: no scheduled write, no flush of this cycle. -/
def flushFree (s : State) (c : Nat) (odd : Bool) : Bool :=
  let x := getCore s c
  !portBusy s c odd true && (if odd then x.flO else x.flE) != some s.cycle

/-- The oldest ready entry of a side is written to the array and freed, and kept for the write that forced it (R99, R100). -/
def flushSide (s : State) (c : Nat) (odd : Bool) : State :=
  match (getCore s c).comb.find? fun e => entryReady s.cycle e && rowSide e.row == odd with
  | some e =>
    if flushFree s c odd then
      let s := modCore (wrRowRaw s c e.row e.bytes) c fun x =>
        let x := { x with comb := dropOne e x.comb, combKept := x.combKept ++ e.owner.toList }
        if odd then { x with flO := some s.cycle } else { x with flE := some s.cycle }
      act (addF s (coreReg c oCoreTsCombine) 31 4 1) c 16 1
    else s
  | none => s

/-- COMBINER_FLUSH (R100): on each side whose write port is free, the oldest ready entry. -/
def execCombinerFlush (c : CoreId) (s : State) : Out :=
  if bgRuns s c then .next (flushSide (flushSide s c false) c true) else .next s

/-! ## Background reads (R94) -/

/-- A side's read port is free for a background read. -/
def bgReadFree (s : State) (c : Nat) (odd : Bool) : Bool :=
  let x := getCore s c
  !portBusy s c odd false && (if odd then x.bgO else x.bgE) != some s.cycle

/-- Takes the side's read port for this cycle. -/
def takeRead (s : State) (c : Nat) (odd : Bool) : State :=
  modCore s c fun x => if odd then { x with bgO := some s.cycle } else { x with bgE := some s.cycle }

/-- Order of R94 after combining reads. -/
def bgReadRank : BgRd → Nat
  | .index .. => 1
  | .rpull dir _ _ _ => 2 + dir
  | .steward _ => 6
  | .master .. | .egress .. => 7

/-- A read has reached the port: a steward's does in the cycle after its TSLD issued (R228). -/
def readThere (s : State) (c : Nat) (r : BgRead) : Bool :=
  match r.src with
  | .steward _ => (getClu s (cluOf c)).tsld.any fun t => decide (t.2 < s.cycle)
  | _ => true

/-- The read served first on a side. -/
def firstRead (s : State) (c : Nat) (odd : Bool) : Option BgRead :=
  ((getCore s c).bgr.filter fun r => rowSide r.row == odd && readThere s c r).foldl (fun b r => match b with
    | none => some r
    | some q => if bgReadRank r.src < bgReadRank q.src then some r else some q) none

/-- The row goes to its reader. -/
def deliverRead (s : State) (c : Nat) (r : BgRead) : State :=
  let row := rdRow s c r.row
  let s := act s c 17 1
  match r.src with
  | .index _ i => modCore s c fun x => { x with idxGot := x.idxGot ++ [(i, row)] }
  | .rpull _ puller born dst => modCore s puller fun y => { y with bgw := y.bgw ++ [⟨.fill born, dst, wholeRow row⟩] }
  | .steward b =>
    let k := cluOf c
    match (getClu s k).tsld with
    | some (rd, t) =>
      let w := BitVec.ofNat 32 (leNat ((row.drop (b % 32)).take 4))
      let s := satF s (cluReg k oCluStats) 15 0 (s.cycle - (t + 2))
      modClu s k fun y => { y with tsld := none, tsldFree := none, freeAt := s.cycle + 2
                                   regs := if rd = 0 then y.regs else y.regs.set rd w }
    | none => s
  | .master b n => answer s .ok ((row.drop (b % 32)).take n)
  | .egress l id i => modLink s l fun x => { x with pre := x.pre.map fun k => if k.id = id then { k with rows := k.rows.set i (some row) } else k }

/-- A steward's read takes the port in the second of two cycles running in which it is free (R228; log 120). -/
def portStood (s : State) (c : Nat) (r : BgRead) : Bool := match r.src with
  | .steward _ => match (getClu s (cluOf c)).tsldFree with
    | some t => t + 1 == s.cycle
    | none => false
  | _ => true

/-- At the end of a cycle a steward's read that has reached its port, and comes first there, notes that the port was free. -/
def notePort (s : State) (c : Nat) : State :=
  [false, true].foldl (fun s odd => match firstRead s c odd with
    | some r => match r.src with
      | .steward _ =>
        if bgReadFree s c odd && !combReadWaits s c odd then modClu s (cluOf c) fun y => { y with tsldFree := some s.cycle } else s
      | _ => s
    | none => s) s

/-- Serves a side's first waiting read, once no combining channel's read comes before it (R94). With the core clock stopped
only masters outside the cores are served, on the service clock (R354). -/
def serveRead (s : State) (c : Nat) (odd : Bool) : State :=
  match firstRead s c odd with
  | some r =>
    let free := if s.clocksOn then bgReadFree s c odd && !combReadWaits s c odd && portStood s c r else decide (bgReadRank r.src = 7)
    if free then deliverRead (modCore (takeRead s c odd) c fun x => { x with bgr := dropOne r x.bgr }) c r else s
  | none => s

/-- BACKGROUND_READ (R94). -/
def execBackgroundRead (c : CoreId) (odd : Bool) (s : State) : Out :=
  if coreFenced s c then .next s else .next (serveRead s c odd)

/-- The rows that a prefetched cell still lacks are read on the service clock (R354, R387). -/
def readRest (s : State) (k : PreCell) : PreCell :=
  { k with rows := k.rows.zipIdx.map fun p => match p.1 with
      | some r => some r
      | none => some (rdRow s k.core (32 * k.tile + p.2)) }

/-! ## Writes by other masters (R93, R579) -/

/-- A write of the tile store by another master waits for the combiner; with the core clock stopped it is made on the
service clock, into an open entry of its row or into the array (R354). -/
def masterWrite (s : State) (c off : Nat) (data : List Byte) : State :=
  let row := off / 32
  let bytes := partRow (off % 32) data
  if s.clocksOn then modCore s c fun x => { x with bgw := x.bgw ++ [⟨.master, row, bytes⟩] }
  else if (getCore s c).comb.any fun e => e.row == row then
    modCore s c fun x => { x with comb := x.comb.map fun e => if e.row = row then { e with bytes := mergeBytes e.bytes bytes } else e }
  else wrRowRaw s c row bytes

/-- TILE_STORE_WRITE (R93, R579): another master writes bytes of a core's tile store. -/
def execTileStoreWrite (m : Master) (c : CoreId) (off : Fin 49152) (data : List Byte) (s : State) : Out :=
  .next (withAccess m true (coreBase c + off) data.length s fun s => answer (masterWrite s c off data) .ok [])

end Sys2Proof.Machine
end

