-- ==== Sys2Proof/Machine/Steward.lean ====
section
/-! DEFINITION. Machine/Steward.lean: stewards, their instructions, the summary inbox and decision points (chapter 7). -/
namespace Sys2Proof.Machine
open Sys2Proof

/-! ## Instruction words (R225) -/

/-- A steward instruction word. -/
abbrev SWord := W32

/-- op[31:26]. -/
def swOp (w : SWord) : Nat := bitsOf w.toNat 31 26
/-- rd[25:22]. -/
def swRd (w : SWord) : Nat := bitsOf w.toNat 25 22
/-- ra[21:18]. -/
def swRa (w : SWord) : Nat := bitsOf w.toNat 21 18
/-- rb[17:14]. -/
def swRb (w : SWord) : Nat := bitsOf w.toNat 17 14
/-- imm14[13:0], zero-extended. -/
def swImm (w : SWord) : Nat := bitsOf w.toNat 13 0
/-- imm14, sign-extended. -/
def swSext (w : SWord) : W32 := BitVec.ofInt 32 (signedOf 14 (swImm w))
/-- imm14, zero-extended, as a word. -/
def swZext (w : SWord) : W32 := BitVec.ofNat 32 (swImm w)

/-- Do the bits that an opcode does not use hold zero, and is the opcode assigned (R225, R226)? -/
def swLegal (w : SWord) : Bool :=
  let o := swOp w
  let rd0 := swRd w == 0
  let ra0 := swRa w == 0
  let rb0 := swRb w == 0
  let i0 := swImm w == 0
  if o = 0x00 then rd0 && ra0 && rb0 && i0
  else if 0x01 ≤ o ∧ o ≤ 0x0B then i0
  else if 0x0C ≤ o ∧ o ≤ 0x0E then rb0
  else if o = 0x0F then ra0
  else if 0x10 ≤ o ∧ o ≤ 0x12 then i0
  else if o = 0x18 ∨ o = 0x19 ∨ o = 0x1A ∨ o = 0x1B then rb0
  else if o = 0x1C ∨ o = 0x1D then true
  else if o = 0x1E then rd0 && bitsOf (swImm w) 12 5 == 0
  else if o = 0x1F then rb0 && i0
  else if 0x20 ≤ o ∧ o ≤ 0x25 then rd0
  else if o = 0x26 then ra0 && rb0
  else if o = 0x27 then rd0 && rb0 && i0
  else if o = 0x28 then rd0 && ra0 && rb0 && bitsOf (swImm w) 13 3 == 0
  else if o = 0x29 then rd0 && bitsOf (swImm w) 13 1 == 0
  else if o = 0x2A then rd0 && ra0 && rb0 && i0
  else if o = 0x2B then ra0 && rb0 && bitsOf (swImm w) 13 1 == 0
  else if o = 0x2C then ra0 && rb0 && i0
  else if o = 0x2D then rd0 && rb0 && i0
  else if o = 0x2E then rd0 && ra0 && rb0 && i0
  else false

/-- Instruction word p of a steward (R220). -/
def stewWord (s : State) (k p : Nat) : SWord := BitVec.ofNat 32 (rdNat s (stewMem k (4 * (p % 4096))) 4)

/-- Does the steward issue in this cycle (R221, R228)? -/
def stewReady (s : State) (k : Nat) : Bool :=
  let x := getClu s k
  s.clocksOn && !cluFenced s k && x.mode == .run && x.tsld.isNone && decide (x.freeAt ≤ s.cycle)

/-- s0 to s15; s0 reads as zero. -/
def sreg (x : CluSt) (r : Nat) : W32 := if r = 0 then 0#32 else x.regs.getD r 0#32

/-- Writes a register; s0 discards. -/
def setSreg (x : CluSt) (r : Nat) (v : W32) : CluSt := if r = 0 then x else { x with regs := x.regs.set r v }

/-! ## Steward faults (R245) -/

/-- Causes of R245. -/
def stewCause : FaultName → Nat
  | .illegalCommand => 1 | .boundViolation => 2 | .waitTimeout => 3 | .decisionEarly => 4 | _ => 5

/-- The steward faults, and a RELEASE that was waiting counts its wait (R235): it issues nothing more, CLU_FAULT_INFO keeps the first cause and pc, Carnelian is signalled. -/
def stewFault (s : State) (k : Nat) (n : FaultName) : State :=
  let x := getClu s k
  let r := cluReg k oCluFaultInfo
  let s := queueFault s (k / 256)
    { coreRec s (coreOfClu k 0) n 0#20 x.pc with unit := 1, loc := k, secondary := x.mode == .faulted, source := k }
  let s := match x.relFrom with
    | some t => satF s (cluReg k oCluStats) 31 16 (s.cycle - t)
    | none => s
  let s := setClu s k { x with mode := .faulted, wait := none, relFrom := none }
  if getB s r 63 then s else setReg s r (BitVec.ofNat 64 (2 ^ 63 + stewCause n * 2 ^ 44 + x.pc % 4096 * 2 ^ 16))

/-! ## Issue -/

/-- The next instruction is the following word; it may issue n cycles from now. -/
def stewNext (s : State) (n : Nat) (x : CluSt) : CluSt := { x with pc := (x.pc + 1) % 4096, freeAt := s.cycle + n }

/-- A steward instruction of opcode `op` issues where the steward is ready and the word at its pc has that opcode; an
illegal word faults the steward whatever the row asked for (R227). -/
def stewMeaning (op : Nat) (eff : State → Nat → SWord → State) (k : CluId) (s : State) : Out :=
  if stewReady s k then
    let w := stewWord s k (getClu s k).pc
    if !swLegal w then .next (stewFault s k .illegalCommand)
    else if swOp w = op then .next (eff (actShared s (k.val / 256) 18 1) k w)
    else .next s
  else .next s

/-- rd ← f ra rb, one cycle. -/
def stewAlu (f : W32 → W32 → W32) (s : State) (k : Nat) (w : SWord) : State :=
  modClu s k fun x => stewNext s 1 (setSreg x (swRd w) (f (sreg x (swRa w)) (sreg x (swRb w))))

/-- rd ← f ra and the word's immediate, one cycle. -/
def stewImm (f : W32 → SWord → W32) (s : State) (k : Nat) (w : SWord) : State :=
  modClu s k fun x => stewNext s 1 (setSreg x (swRd w) (f (sreg x (swRa w)) w))

/-- 1 or 0. -/
def bit32 (b : Bool) : W32 := if b then 1#32 else 0#32

/-- NOP (R226): one cycle. -/
def execNop (k : CluId) (s : State) : Out := stewMeaning 0x00 (fun s k _ => modClu s k (stewNext s 1)) k s
/-- ADD (R226). -/
def execAdd (k : CluId) (s : State) : Out := stewMeaning 0x01 (stewAlu (· + ·)) k s
/-- SUB (R226). -/
def execSub (k : CluId) (s : State) : Out := stewMeaning 0x02 (stewAlu (· - ·)) k s
/-- AND (R226). -/
def execAnd (k : CluId) (s : State) : Out := stewMeaning 0x03 (stewAlu (· &&& ·)) k s
/-- OR (R226). -/
def execOr (k : CluId) (s : State) : Out := stewMeaning 0x04 (stewAlu (· ||| ·)) k s
/-- XOR (R226). -/
def execXor (k : CluId) (s : State) : Out := stewMeaning 0x05 (stewAlu (· ^^^ ·)) k s
/-- SHL (R226): by rb & 31. -/
def execShl (k : CluId) (s : State) : Out := stewMeaning 0x06 (stewAlu fun a b => a <<< (b.toNat % 32)) k s
/-- SHR (R226): by rb & 31. -/
def execShr (k : CluId) (s : State) : Out := stewMeaning 0x07 (stewAlu fun a b => a >>> (b.toNat % 32)) k s
/-- SRA (R226): by rb & 31. -/
def execSra (k : CluId) (s : State) : Out := stewMeaning 0x08 (stewAlu fun a b => a.sshiftRight (b.toNat % 32)) k s
/-- MUL (R226): low 32 bits. -/
def execMul (k : CluId) (s : State) : Out := stewMeaning 0x09 (stewAlu (· * ·)) k s
/-- SLT (R226): signed. -/
def execSlt (k : CluId) (s : State) : Out := stewMeaning 0x0A (stewAlu fun a b => bit32 (a.slt b)) k s
/-- SLTU (R226): unsigned. -/
def execSltu (k : CluId) (s : State) : Out := stewMeaning 0x0B (stewAlu fun a b => bit32 (a.ult b)) k s
/-- ADDI (R226). -/
def execAddi (k : CluId) (s : State) : Out := stewMeaning 0x0C (stewImm fun a w => a + swSext w) k s
/-- ORI (R226). -/
def execOri (k : CluId) (s : State) : Out := stewMeaning 0x0D (stewImm fun a w => a ||| swZext w) k s
/-- ANDI (R226). -/
def execAndi (k : CluId) (s : State) : Out := stewMeaning 0x0E (stewImm fun a w => a &&& swZext w) k s
/-- LUI (R226): imm18 << 14. -/
def execLui (k : CluId) (s : State) : Out :=
  stewMeaning 0x0F (stewImm fun _ w => BitVec.ofNat 32 (bitsOf w.toNat 17 0) <<< (14 : Nat)) k s
/-- FLT (R226, R197): quiet. -/
def execFlt (k : CluId) (s : State) : Out := stewMeaning 0x10 (stewAlu fun a b => bit32 (flt a b)) k s
/-- FLE (R226, R197): quiet. -/
def execFle (k : CluId) (s : State) : Out := stewMeaning 0x11 (stewAlu fun a b => bit32 (fle a b)) k s
/-- FEQ (R226, R197): quiet. -/
def execFeq (k : CluId) (s : State) : Out := stewMeaning 0x12 (stewAlu fun a b => bit32 (feq a b)) k s

/-! ## Steward memory and inbox (R226, R227, R229, R230) -/

/-- ra + sext(imm14). -/
def swAddr (x : CluSt) (w : SWord) : Nat := (sreg x (swRa w) + swSext w).toNat
/-- ra + zext(imm14). -/
def swOff (x : CluSt) (w : SWord) : Nat := (sreg x (swRa w) + swZext w).toNat

/-- An effect at a checked address; BOUND_VIOLATION where the check fails. -/
def stewChecked (ok : Bool) (s : State) (k : Nat) (t : State) : State := if ok then t else stewFault s k .boundViolation

/-- LD (R226): an aligned word of steward memory. -/
def execLd (k : CluId) (s : State) : Out :=
  stewMeaning 0x18 (fun s k w =>
    let a := swAddr (getClu s k) w
    stewChecked (a % 4 == 0 && decide (a < 0x4000)) s k
      (modClu s k fun x => stewNext s 1 (setSreg x (swRd w) (BitVec.ofNat 32 (rdNat s (stewMem k a) 4))))) k s

/-- ST (R226). -/
def execSt (k : CluId) (s : State) : Out :=
  stewMeaning 0x19 (fun s k w =>
    let x := getClu s k
    let a := swAddr x w
    stewChecked (a % 4 == 0 && decide (a < 0x4000)) s k
      (modClu (wrNat s (stewMem k a) 4 (sreg x (swRd w)).toNat) k (stewNext s 1))) k s

/-- CLU_INBOXe. -/
def inbox (k e : Nat) : Nat := cluReg k (oCluInbox + 8 * e)

/-- INBV (R226, R230): the value of an inbox entry; clears its fresh and lost bits. -/
def execInbv (k : CluId) (s : State) : Out :=
  stewMeaning 0x1A (fun s k w =>
    let e := swOff (getClu s k) w
    stewChecked (decide (e ≤ 255)) s k
      (let v := getReg s (inbox k e)
       modClu (setF (setF s (inbox k e) 49 49 0) (inbox k e) 48 48 0) k fun x =>
         stewNext s 1 (setSreg x (swRd w) (v.setWidth 32)))) k s

/-- INBI (R226): fresh, lost, kind and index of an inbox entry. -/
def execInbi (k : CluId) (s : State) : Out :=
  stewMeaning 0x1B (fun s k w =>
    let e := swOff (getClu s k) w
    stewChecked (decide (e ≤ 255)) s k
      (let v := (getReg s (inbox k e)).toNat
       let r := bitsOf v 49 49 * 2 ^ 31 + bitsOf v 48 48 * 2 ^ 30 + bitsOf v 63 60 * 2 ^ 16 + bitsOf v 47 32
       modClu s k fun x => stewNext s 1 (setSreg x (swRd w) (BitVec.ofNat 32 r)))) k s

/-- SUMMARY_LANDED (R214, R229, R230): the first summary word on its way from a core lands; its inbox entry shows it from
the next cycle on. -/
def execSummaryLanded (c : CoreId) (s : State) : Out :=
  match (getCore s c).summ with
  | [] => .next s
  | (slot, v) :: rest =>
    if !s.clocksOn || coreFenced s c then .next s
    else
      let s := modClu s (cluOf c) fun y => { y with landed := y.landed ++ [(4 * localOf c + slot % 4, v)] }
      .next (modCore (addF s (coreReg c oCoreVxStats) 63 32 1) c fun x => { x with summ := rest })

/-- A landed word enters its entry: fresh; lost, and counted, where the entry was still fresh (R229). -/
def enterSummary (k : Nat) (s : State) (p : Nat × W64) : State :=
  let a := inbox k p.1
  let was := getB s a 49
  let base := p.2.toNat % 2 ^ 48 + p.2.toNat / 2 ^ 60 * 2 ^ 60
  let lost := was || getB s a 48
  let s := setReg s a (BitVec.ofNat 64 (base + 2 ^ 49 + lost.toNat * 2 ^ 48))
  if was then addF s (cluReg k oCluInboxLost) 63 0 1 else s

/-- The words that landed in a cycle enter the inbox at its end, after what an INBV of the cycle has cleared (R230). -/
def enterSummaries (s : State) (k : Nat) : State :=
  match (getClu s k).landed with
  | [] => s
  | l => modClu (l.foldl (enterSummary k) s) k fun y => { y with landed := [] }

/-! ## Tile stores and counters of the cluster (R226, R228, R241 to R244) -/

/-- The core that rb names. -/
def swCore (s : State) (k : Nat) (w : SWord) : Nat := coreOfClu k ((sreg (getClu s k) (swRb w)).toNat % 64)

/-- The target core's access table lets the steward in, as the compiled task running there (R242). -/
def stewGranted (s : State) (c off : Nat) (write : Bool) : Bool :=
  granted s (.compiled (Fin.ofNat 4 (getCore s c).task)) write (.core c off) (coreBase c + off) 4

/-- The denial of a steward access is recorded at the target, and the steward faults (R242, R461). -/
def stewDenied (s : State) (k c off : Nat) (write : Bool) : State :=
  stewFault (deny s (.core c off) (.compiled (Fin.ofNat 4 (getCore s c).task)) write (coreBase c + off)) k .accessDenied

/-- TSLD (R226, R228): a background read of a tile-store word; the steward goes on when it has come. -/
def execTsld (k : CluId) (s : State) : Out :=
  stewMeaning 0x1C (fun s k w =>
    let c := swCore s k w
    let a := swOff (getClu s k) w
    if a % 4 ≠ 0 ∨ 0xC000 ≤ a then stewFault s k .boundViolation
    else if !stewGranted s c a false then stewDenied s k c a false
    else
      let s := modCore s c fun y => { y with bgr := y.bgr ++ [⟨.steward (a % 32), a / 32⟩] }
      modClu s k fun x => { stewNext s 4 x with tsld := some (swRd w, s.cycle) }) k s

/-- TSST (R226, R228, R243): a posted background write of a tile-store word. -/
def execTsst (k : CluId) (s : State) : Out :=
  stewMeaning 0x1D (fun s k w =>
    let x := getClu s k
    let c := swCore s k w
    let a := swOff x w
    if a % 4 ≠ 0 ∨ 0xC000 ≤ a then stewFault s k .boundViolation
    else if !stewGranted s c a true then stewDenied s k c a true
    else
      let bytes := partRow (a % 32) (natLe 4 (sreg x (swRd w)).toNat)
      let s := modCore s c fun y => { y with bgw := y.bgw ++ [⟨.steward x.tsstNext, a / 32, bytes⟩] }
      modClu s k fun x => { stewNext s 1 x with tsstNext := x.tsstNext + 1, tsstOut := x.tsstOut ++ [x.tsstNext] }) k s

/-- CTRINC (R226, R228): its update follows in two cycles, or after every earlier TSST has been accepted. -/
def execCtrinc (k : CluId) (s : State) : Out :=
  stewMeaning 0x1E (fun s k w =>
    modClu s k fun x =>
      let i : CtrInc := { due := s.cycle + 2, after := x.tsstNext, core := if bitOf (swImm w) 13 then none else some ((sreg x (swRb w)).toNat % 64)
                          ctr := swImm w % 32, amt := (sreg x (swRa w)).setWidth 16 }
      { stewNext s 1 x with incs := x.incs ++ [i] }) k s

/-- A CTRINC may be applied: its cycle has come and no earlier TSST is outstanding. -/
def incReady (s : State) (x : CluSt) (i : CtrInc) : Bool :=
  decide (i.due ≤ s.cycle) && x.tsstOut.all fun q => decide (i.after ≤ q)

/-- Applies a CTRINC: to a core in FENCED it changes nothing (R244). -/
def applyInc (s : State) (k : Nat) (i : CtrInc) : State :=
  let one (s : State) (n : Nat) : State := if coreFenced s (coreOfClu k n) then s else ctrBump s (coreOfClu k n) i.ctr i.amt.toNat
  match i.core with
  | some n => one s n
  | none => (List.range 64).foldl one s

/-- CTRINC_APPLY (R228): the oldest CTRINC whose cycle has come and whose earlier TSSTs have been accepted. -/
def execCtrincApply (k : CluId) (s : State) : Out :=
  let x := getClu s k
  if !s.clocksOn || cluFenced s k then .next s
  else match x.incs.find? fun i => incReady s x i with
    | some i => .next (applyInc (setClu s k { x with incs := dropOne i x.incs }) k i)
    | none => .next s

/-! ## Decision points (R231 to R240) -/

/-- The core counts as arrived: in HELD with its arrival standing, or STOPPED (R231). A core that has faulted or is fenced
never does (R233). -/
def arrived (s : State) (c : Nat) : Bool :=
  let x := getCore s c
  !coreFenced s c && ((x.mode == .held && x.arrAt.isSome) || x.mode == .stopped)

/-- Cycle from which WAITDP and DPTAG see the arrival (R232). -/
def seenFrom (x : CoreSt) : Nat := x.arrAt.getD 0 + 6

/-- Does the steward see the core's arrival now? -/
def arrivalSeen (s : State) (c : Nat) : Bool := arrived s c && decide (seenFrom (getCore s c) ≤ s.cycle)

/-- DPTAG (R226, R231): arrived, stopped and the tag of a core. -/
def execDptag (k : CluId) (s : State) : Out :=
  stewMeaning 0x1F (fun s k w =>
    modClu s k fun x =>
      let c := coreOfClu k ((sreg x (swRa w)).toNat % 64)
      let y := getCore s c
      let seen := arrivalSeen s c
      let tag := if seen || y.arrAt.isNone then y.arrTag else y.prevTag
      stewNext s 1 (setSreg x (swRd w)
        (BitVec.ofNat 32 (seen.toNat * 2 ^ 31 + (seen && y.mode == .stopped).toNat * 2 ^ 30 + tag.toNat)))) k s

/-- DP_ARRIVAL (R60, R231): a drained core enters HELD and reports its arrival, in the cycle after its last command has
completed; a summary completes as its word lands (R214, R238). -/
def execDpArrival (c : CoreId) (s : State) : Out :=
  let x := getCore s c
  if s.clocksOn && !coreFenced s c && x.mode == .drain && x.cmds.isEmpty && x.lateW.isEmpty && x.considered != some s.cycle &&
      !x.ovlWait && x.conv.isNone && x.convOut.isNone && x.summ.isEmpty then
    let w := curWord s c
    let s := trace s c 0x03 (some x.dpTag) (wHint w + (wHintEn w).toNat * 16)
    .next (setCore s c { x with mode := .held, arrAt := some s.cycle, prevTag := x.arrTag, arrTag := x.dpTag })
  else .next s

/-- WAITDP (R233): the steward waits for the 64 cores; horizon register imm14[2:0]. -/
def execWaitdp (k : CluId) (s : State) : Out :=
  stewMeaning 0x28 (fun s k w => modClu s k fun x => { x with mode := .waitdp, wait := some (s.cycle, swImm w % 8) }) k s

/-- The cores of a cluster. -/
def cluCores (k : Nat) : List Nat := (List.range 64).map (coreOfClu k)

/-- Cycle in which the last arrival is seen; none while a core has not arrived. -/
def allSeen (s : State) (k : Nat) : Option Nat :=
  if (cluCores k).all (arrived s) then some (((cluCores k).map fun c => seenFrom (getCore s c)).foldl max 0) else none

/-- Tags of the arrived cores that are not STOPPED differ (R234). -/
def tagsMixed (s : State) (k : Nat) : Bool :=
  match ((cluCores k).filter fun c => (getCore s c).mode != .stopped).map fun c => (getCore s c).arrTag with
  | [] => false
  | t :: l => l.any (· != t)

/-- The horizon of a WAITDP. -/
def dpHorizon (s : State) (k n : Nat) : Nat := getF s (cluReg k (oCluHorizon + 8 * n)) 31 0

/-- Was the wait met within its horizon: it is evaluated from the cycle after its issue (DEDUCED from R55 and R233)? -/
def dpInTime (s : State) (k w n : Nat) : Option Nat :=
  match allSeen s k with
  | some v => if max (w + 1) v ≤ w + dpHorizon s k n then some (max (w + 1) v) else none
  | none => none

/-- WAITDP_COMPLETE (R233, R234): every arrival is visible; the next instruction may issue in this cycle. -/
def execWaitdpComplete (k : CluId) (s : State) : Out :=
  let x := getClu s k
  match x.wait with
  | some (w, n) =>
    if !s.clocksOn || cluFenced s k || x.mode != .waitdp then .next s
    else match dpInTime s k w n with
      | some t =>
        if t ≤ s.cycle then
          .next (setF (setClu s k { x with mode := .run, wait := none, waited := true, pc := (x.pc + 1) % 4096, freeAt := t })
            (cluReg k oCluState) 4 4 (tagsMixed s k).toNat)
        else .next s
      | none => .next s
  | none => .next s

/-- DECISION_HORIZON (R233): the horizon of a WAITDP has passed unmet. -/
def execDecisionHorizon (k : CluId) (s : State) : Out :=
  let x := getClu s k
  match x.wait with
  | some (w, n) =>
    if s.clocksOn && !cluFenced s k && x.mode == .waitdp && decide (w + dpHorizon s k n < s.cycle) && (dpInTime s k w n).isNone then
      .next (stewFault s k .waitTimeout)
    else .next s
  | none => .next s

/-- Next-block entry of a cluster-local core (R239). -/
def nextEntry (s : State) (k n : Nat) : Nat := getF s (cluReg k (oCluNext + 8 * (n / 16))) (4 * (n % 16) + 3) (4 * (n % 16))

/-- Sets it. -/
def setNextEntry (s : State) (k n e : Nat) : State := setF s (cluReg k (oCluNext + 8 * (n / 16))) (4 * (n % 16) + 3) (4 * (n % 16)) e

/-- SETNX (R226, R239). -/
def execSetnx (k : CluId) (s : State) : Out :=
  stewMeaning 0x29 (fun s k w =>
    let x := getClu s k
    let e := (sreg x (swRb w)).toNat % 16
    let s := if bitOf (swImm w) 0 then (List.range 64).foldl (fun s n => setNextEntry s k n e) s
      else setNextEntry s k ((sreg x (swRa w)).toNat % 64) e
    modClu s k (stewNext s 1)) k s

/-- The release goes out (R236, R237): arrived bits cleared, redirects on their way to the cores in HELD, statistics. -/
def releaseNow (s : State) (k : Nat) : State :=
  let last := ((cluCores k).map fun c => ((getCore s c).arrAt).getD 0).foldl max 0
  let time := s.cycle + 14 - last
  let x := getClu s k
  let s := satF s (cluReg k oCluStats) 31 16 (s.cycle - x.relFrom.getD s.cycle)
  let s := addF s (cluReg k oCluStats) 63 32 1
  let s := setF s (cluReg k oCluDpTime) 31 0 time
  let s := if getF s (cluReg k oCluDpTime) 63 32 < time then setF s (cluReg k oCluDpTime) 63 32 time else s
  let s := (List.range 64).foldl (fun s n =>
    let c := coreOfClu k n
    let y := getCore s c
    if y.mode = .held then setCore s c { y with arrAt := none, redirect := some (nextEntry s k n, s.cycle + 14) } else s) s
  modClu s k fun x => { stewNext s 1 x with waited := false, relFrom := none }

/-- RELEASE (R235, R236): waits for earlier TSSTs and CTRINCs; without a completed WAITDP, or with an arrival withdrawn, the
steward faults. -/
def execRelease (k : CluId) (s : State) : Out :=
  stewMeaning 0x2A (fun s k _ =>
    let x := getClu s k
    if !x.tsstOut.isEmpty || !x.incs.isEmpty then setClu s k { x with relFrom := some (x.relFrom.getD s.cycle) }
    else if !x.waited || !(cluCores k).all (arrived s) then stewFault s k .decisionEarly
    else releaseNow s k) k s

/-- Fills of the running task that are provisional (R74). -/
def provisionals (x : CoreSt) : List Fill := (curTask x).fills.filter (·.provisional)

/-- Confirms the provisional fills: their withheld increments are applied now (R74). -/
def confirmFills (s : State) (c : Nat) : State :=
  let s := modCore s c fun x => { setTask x { curTask x with fills := (curTask x).fills.map fun f => { f with provisional := false } } with snap := none }
  landFills s c (getCore s c).task

/-- Cancels the provisional fills: slots freed, counted, the fetch engine back where it stood at the decision point (R74). -/
def cancelRunAhead (s : State) (c : Nat) (n : FetchSnap) : State :=
  let x := getCore s c
  let k := (provisionals x).length
  let t := curTask x
  let s := setCore s c { setTask x { t with fills := t.fills.filter fun f => !f.provisional, fpc := n.fpc, floops := n.floops, nextSlot := n.nextSlot }
                         with snap := none, fetchPast := n.past }
  let s := addF s (coreReg c oCoreRingStatus) 63 32 k
  (List.range 16).foldl (fun s i => setReg s (coreReg c (oCoreAdr + 8 * i)) (n.adrs.getD i 0#64)) s

/-- The redirect confirms the run-ahead: it selects the hinted entry, which is usable and still one of the running task (R74);
at a change of task the outgoing task's run-ahead is cancelled (R64). -/
def confirms (s : State) (c e : Nat) (n : FetchSnap) : Bool :=
  n.hint == e && entryOk s c e && getF s (coreReg c (oCoreEntry + 8 * e)) 9 8 == (getCore s c).task

/-- The redirect takes effect (R61, R62, R64, R74): run-ahead confirmed or cancelled, then the entry's task and word. With
run-ahead confirmed the fetch engine goes on where it is. -/
def redirectTo (s : State) (c e : Nat) : State :=
  let x := getCore s c
  match x.snap with
  | some n =>
    if confirms s c e n then
      let t := curTask x
      let s := enterAt (confirmFills s c) c e x.dpTag
      modCore s c fun y => { setTask y { curTask y with fpc := t.fpc, floops := t.floops } with
        fetchCause := x.fetchCause, fetchDone := x.fetchDone, idxReq := x.idxReq, idxGot := x.idxGot, bgr := x.bgr
        fetchPast := x.fetchPast }
    else enterAt (cancelRunAhead s c n) c e x.dpTag
  | none => enterAt s c e x.dpTag

/-- REDIRECT (R61, R236): the steward's redirect reaches a core in HELD. -/
def execRedirect (c : CoreId) (s : State) : Out :=
  let x := getCore s c
  match x.redirect with
  | some (e, t) =>
    if s.clocksOn && !coreFenced s c && x.mode == .held && decide (t ≤ s.cycle) then
      let lost := match x.snap with | some n => if confirms s c e n then 0 else (provisionals x).length | none => 0
      let s := trace s c 0x04 (some x.arrTag) (e + min lost 31 * 2 ^ 8)
      .next (redirectTo (setCore s c { x with redirect := none }) c e)
    else .next s
  | none => .next s

/-! ## Control flow and the rest (R226) -/

/-- A branch: taken it costs two cycles, and its offset counts words from itself. -/
def stewBranch (p : W32 → W32 → Bool) (s : State) (k : Nat) (w : SWord) : State :=
  modClu s k fun x =>
    if p (sreg x (swRa w)) (sreg x (swRb w)) then
      { x with pc := ((x.pc : Int) + signedOf 14 (swImm w)).emod 4096 |>.toNat, freeAt := s.cycle + 2 }
    else stewNext s 1 x

/-- BEQ (R226). -/
def execBeq (k : CluId) (s : State) : Out := stewMeaning 0x20 (stewBranch fun a b => a == b) k s
/-- BNE (R226). -/
def execBne (k : CluId) (s : State) : Out := stewMeaning 0x21 (stewBranch fun a b => a != b) k s
/-- BLT (R226): signed. -/
def execBlt (k : CluId) (s : State) : Out := stewMeaning 0x22 (stewBranch fun a b => a.slt b) k s
/-- BGE (R226): signed. -/
def execBge (k : CluId) (s : State) : Out := stewMeaning 0x23 (stewBranch fun a b => !a.slt b) k s
/-- BLTU (R226): unsigned. -/
def execBltu (k : CluId) (s : State) : Out := stewMeaning 0x24 (stewBranch fun a b => a.ult b) k s
/-- BGEU (R226): unsigned. -/
def execBgeu (k : CluId) (s : State) : Out := stewMeaning 0x25 (stewBranch fun a b => !a.ult b) k s
/-- JAL (R226): rd ← pc + 1; pc ← zext(imm14), a word number modulo 4,096. At word 4,095 the 12-bit pc + 1 is 0 (DESIGN
CHOICE, log 121). -/
def execJal (k : CluId) (s : State) : Out :=
  stewMeaning 0x26 (fun s k w => modClu s k fun x =>
    { setSreg x (swRd w) (BitVec.ofNat 32 ((x.pc + 1) % 4096)) with pc := swImm w % 4096, freeAt := s.cycle + 2 }) k s
/-- JR (R226): pc ← ra[11:0]. -/
def execJr (k : CluId) (s : State) : Out :=
  stewMeaning 0x27 (fun s k w => modClu s k fun x => { x with pc := (sreg x (swRa w)).toNat % 4096, freeAt := s.cycle + 2 }) k s

/-- QTIME (R226): the field's Quartz time, low half sampled and high half kept, or the kept half. -/
def execQtime (k : CluId) (s : State) : Out :=
  stewMeaning 0x2B (fun s k w => modClu s k fun x =>
    let t := getReg s (fieldReg (k / 256) oFldQtzTime)
    if bitOf (swImm w) 0 then stewNext s 1 (setSreg x (swRd w) x.latch)
    else stewNext s 1 { setSreg x (swRd w) (t.setWidth 32) with latch := BitVec.ofNat 32 (t.toNat / 2 ^ 32) }) k s

/-- CYC (R226): the steward's cycle count, in field cycles (R220). -/
def execCyc (k : CluId) (s : State) : Out :=
  stewMeaning 0x2C (fun s k w => modClu s k fun x => stewNext s 1 (setSreg x (swRd w) (BitVec.ofNat 32 s.cycle))) k s

/-- NOTIFY (R226, R247): posts a code. -/
def execNotify (k : CluId) (s : State) : Out :=
  stewMeaning 0x2D (fun s k w =>
    let v := (sreg (getClu s k) (swRa w)).toNat
    let a := cluReg k oCluNotify
    let s := traceEv s (coreOfClu k 0) 0xFFFFF 0x0B none v
    modClu (setF (setF (addF s a 47 32 1) a 31 0 v) a 63 63 1) k (stewNext s 1)) k s

/-- HALT (R226). -/
def execHalt (k : CluId) (s : State) : Out :=
  stewMeaning 0x2E (fun s k _ => modClu s k fun x => { stewNext s 1 x with mode := .halted }) k s

/-! ## Starting a steward (R222) -/

/-- A start write: in RESET or HALTED it arms the steward; in any other state it is refused and counted. -/
def cluCtlWrite (s : State) (k : Nat) (v : W64) : Status × State :=
  let x := getClu s k
  if !bitOf v.toNat 0 then (.ok, s)
  else if s.clk.kind = 0 ∧ (x.mode = .reset ∨ x.mode = .halted) then (.ok, setClu s k { x with armed := some (bitsOf v.toNat 27 16) })
  else (.configRejected, addF s (cluReg k oCluRefusals) 63 32 1)

/-- CLU_CTL (R222): a write of CLU_CTL by a master. -/
def execCluCtl (m : Master) (k : CluId) (v : W64) (s : State) : Out :=
  .next (writeAccess m (cluReg k oCluCtl) s fun s => cluCtlWrite s k v)

end Sys2Proof.Machine
end

