-- ==== Sys2Proof/Machine/Garnet.lean ====
section
/-! DEFINITION. Machine/Garnet.lean: Garnet lines, the fallback barrier, the realign of a core, DEADLOCK, and the fences
of fields and clusters (R28, R246, R249 to R268, R299, R331). -/
namespace Sys2Proof.Machine
open Sys2Proof

/-! ## Members, scope, taps (R256, R257, R263) -/

/-- The fields of a line. -/
def garFields (s : State) (n : Nat) : List Nat := (List.range 64).filter fun f => getB s (modReg (oGarLineFields + 8 * n)) f

/-- The clusters of a line in a field. -/
def garClusters (s : State) (n f : Nat) : List Nat :=
  ((List.range 256).filter fun k => getB s (fieldReg f (oGarFmask + 0x20 * n + 8 * (k / 64))) (k % 64)).map (256 * f + ·)

/-- The member cores of a line (R256). -/
def garMembers (s : State) (n : Nat) : List Nat :=
  (((garFields s n).map fun f => (garClusters s n f).map fun k =>
    ((List.range 64).filter fun i => getB s (cluReg k (oCluGarMask + 8 * n)) i).map (coreOfClu k)).flatten).flatten

/-- Scope of a line: 0 no members, 1 cluster, 2 field, 3 module (R257, R274). -/
def garScope (s : State) (n : Nat) : Nat :=
  match garMembers s n with
  | [] => 0
  | c :: l => if l.all fun d => cluOf d == cluOf c then 1 else if l.all fun d => fieldOfCore d == fieldOfCore c then 2 else 3

/-- Release latency L (R257). -/
def garLat : Nat → Nat
  | 1 => 6 | 2 => 14 | _ => 64

/-- A field's segment of a line carries its value: no rail fault on it, or the sound spare stands in for it (R26, R263). -/
def segmentOk (s : State) (f n : Nat) : Bool :=
  let m := fieldReg f oFldSpareMap
  if getB s m 15 && getF s m 14 12 == n then !getB s (fieldReg f oGarFldStatus) 24
  else !getB s (fieldReg f oGarFldStatus) (8 + n)

/-- A member's tap is at arrived (R262). -/
def tapArrived (s : State) (c n : Nat) : Bool := getB s (garReg c n) 10 && !coreFenced s c && segmentOk s (fieldOfCore c) n

/-- Every member has arrived on a line that has members, and the line does not run in fallback. -/
def lineFull (s : State) (n : Nat) : Bool :=
  let ms := garMembers s n
  !ms.isEmpty && ms.all (fun c => tapArrived s c n) && !getB s (modReg (oGarLineCtl + 8 * n)) 0

/-- Cycle in which a full line releases (R260); the realign's is always the module-scope release (R252). -/
def releaseCycle (s : State) (n : Nat) : Nat := (getGar s n).last + garLat (if n = realignLine s then 3 else garScope s n)

/-- A member takes a release: counter, count of releases, arrival cleared (R260). -/
def takeRelease (s : State) (n : Nat) (ctr : Bool) (c : Nat) : State :=
  let r := garReg c n
  let s := if ctr then trace (ctrBump s c (getF s r 4 0) 1) c 0x05 none (n + (getB s (modReg (oGarLineCtl + 8 * n)) 0).toNat * 8) else s
  setF (addF s r 31 16 1) r 10 10 0

/-- A line's release (R260); the realign line's counts, but increments nothing (R252). -/
def releaseLine (s : State) (n : Nat) : State := (garMembers s n).foldl (fun s c => takeRelease s n true c) s

/-! ## Rails and fallback (R263 to R265) -/

/-- GARNET_RAIL (R263): the rails of a line's segment, or of the spare, disagree in a field; firmware asks for fallback. -/
def execGarnetRail (f : FieldId) (n : Fin 8) (spare : Bool) (s : State) : Out :=
  let s := setF s (fieldReg f oGarFldStatus) (if spare then 24 else 8 + n) (if spare then 24 else 8 + n) 1
  let s := queueFault s f (fieldRec s f 2 .garnetRail false false (spare.toNat * 256 + n))
  .next (setF s (modReg (oGarLineCtl + 8 * n)) 8 8 1)

/-- Writes GAR_LINEn_CTL.fallback. -/
def garCtlWrite (s : State) (n : Nat) (v : W64) : State := setF s (modReg (oGarLineCtl + 8 * n)) 8 8 (bitsOf v.toNat 8 8)

/-- GAR_FALLBACK (R264): firmware writes a line's fallback request. -/
def execGarFallback (m : Master) (n : Fin 8) (v : W64) (s : State) : Out :=
  .next (writeAccess m (modReg (oGarLineCtl + 8 * n)) s fun s => (.ok, (garCtlWrite s n v)))

/-- An arrival goes to the central counter of its group; a group whose expected count is 0 refuses it (R265). -/
def toCentral (s : State) (n c : Nat) : State :=
  let g := getF s (garReg c n) 9 6
  let e := modReg (oGarFbexpG + 0x80 * n + 8 * g)
  if getF s e 20 0 = 0 then coreFault s c .barrierEarly (getCore s c).lastTag 0 (8 + n)
  else
    let y := getGar s n
    setGar (addF s e 52 32 1) n { y with lastNs := y.lastNs.set g (quartz s) }

/-- FALLBACK_SWITCH (R264): the request takes effect; going to fallback transfers held arrivals, going back waits until
every group counts 0. -/
def execFallbackSwitch (n : Fin 8) (s : State) : Out :=
  let r := modReg (oGarLineCtl + 8 * n)
  if getB s r 8 && !getB s r 0 then
    .next (((garMembers s n).filter fun c => getB s (garReg c n) 10).foldl (fun s c => toCentral s n c) (setF s r 0 0 1))
  else if !getB s r 8 && getB s r 0 && (List.range 16).all fun g => getF s (modReg (oGarFbexpG + 0x80 * n + 8 * g)) 52 32 == 0 then
    .next (setF s r 0 0 0)
  else .next s

/-! ## The realign of a core (R251 to R255) -/

/-- REALIGN_ARRIVAL (R251): every command and every fill of the step is complete, and the sb word's own effects have been
taken; a boundary that is a decision point too arrives while the core drains or is held. -/
def execRealignArrival (c : CoreId) (s : State) : Out :=
  let x := getCore s c
  let landed := x.tasks.all fun t => t.fills.all fun f => f.deferred != 0 || f.rowsLeft == 0
  if s.clocksOn && !coreFenced s c && (x.mode == .run || x.mode == .drain || x.mode == .held) && x.sbHold && !x.sbArrived && x.cmds.isEmpty && x.summ.isEmpty && x.lateW.isEmpty &&
      x.considered != some s.cycle && landed then
    .next (garArrive (modCore s c fun x => { x with sbArrived := true, realArr := some s.cycle }) c (realignLine s) x.lastTag)
  else .next s

/-- A core whose realign horizon is over takes WAIT_TIMEOUT (R255): no release by the end of cycle d + H; a checkpoint
hold stops the count (R440). -/
def realignOver (s : State) (c : Nat) : State :=
  let x := getCore s c
  match x.realArr with
  | some d =>
    if (x.mode == .run || x.mode == .drain || x.mode == .held) && x.sbHold && !getB s (modReg oModCkptStatus) 63 && decide (d + getF s (modReg oGarRealign) 63 32 < s.cycle) then
      coreFault s c .waitTimeout x.lastTag 0 (3 * 32 + 31)
    else s
  | none => s

/-- REALIGN_HORIZON (R255). -/
def execRealignHorizon (c : CoreId) (s : State) : Out := .next (if s.clocksOn then realignOver s c else s)

/-- The lowest counter in check mode whose value at the start of r is not its step count (R254). -/
def driftCtr (s : State) (c : Nat) : Option Nat :=
  (List.range 32).find? fun i => getF s (coreReg c oCoreCtrMode) (2 * i + 1) (2 * i) == 2 &&
    (ctrVal s c i).toNat != getF s (coreReg c (oCoreCtrStep + 8 * (i / 4))) (16 * (i % 4) + 15) (16 * (i % 4))

/-- COUNT_DRIFT (R250, R254): the record in CORE_CTR_STATUS and the fault. -/
def countDrift (s : State) (c kind i : Nat) (v : BitVec 16) (tag : BitVec 20) : State :=
  let r := coreReg c oCoreCtrStatus
  let d := kind * 2 ^ 29 + i * 2 ^ 24 + v.toNat
  let s := if getB s r 63 then s
    else setF (setF (setF (setF s r 63 63 1) r 29 29 kind) r 28 24 i) r 15 0 v.toNat
  coreFault s c .countDrift tag 0 d

/-- Records a MESH_ERROR in CORE_MESH_FAULT and faults the core (R303). -/
def meshError (s : State) (c kind chan src : Nat) (tag : BitVec 20) : State :=
  let r := coreReg c oCoreMeshFault
  let v := kind * 2 ^ 56 + chan * 2 ^ 50 + src * 2 ^ 20
  let s := if getB s r 63 then s else setReg s r (BitVec.ofNat 64 (2 ^ 63 + v + tag.toNat))
  coreFault s c .meshError tag 0 v


/-- The channels at a realign (R299): open rounds, counts, generations. -/
def realignChannel (s : State) (c gen ch : Nat) : State :=
  let r := chStat c ch
  let role := chanRole s c ch
  let opened := role == 3 && getF s r 7 0 != 0
  let s := if opened then meshError (setF s r 57 57 1) c 5 ch 0 0#20 else s
  let s := if role = 1 ∨ role = 2 then setF s r 7 0 0 else s
  setF s r 19 16 gen

/-- The realign updates of one core (R253, R254, R299, R440): counters at the end of this cycle, generation, step,
channels, deferred fills, the fetch engine past a checkpoint boundary. -/
def realignCore (s : State) (c : Nat) : State :=
  let drift := (driftCtr s c).map fun i => (i, ctrVal s c i)
  let tag := (getCore s c).lastTag
  let gen := (getF s (coreReg c oCoreCtrStatus) 19 16 + 1) % 16
  let s := takeRelease s (realignLine s) false c
  let s := setF s (coreReg c oCoreCtrStatus) 19 16 gen
  let s := addF s (coreReg c oCoreStep) 63 0 1
  let s := trace s c 0x06 none gen
  let pass := (getCore s c).fetchCause = 7
  let s := modCore s c fun x => { x with
    real := true, issIdx := 0, sbHold := false, sbArrived := false, realArr := none, considered := some s.cycle, fetchPast := x.fetchPast - 1
    snap := x.snap.map fun n => { n with past := n.past - 1 }
    tasks := x.tasks.map fun t => { t with fills := t.fills.map fun f => { f with deferred := f.deferred - 1 } } }
  let s := (List.range 4).foldl (fun s t => landFills s c t) s
  let s := if pass then (match fetchWord s c with
      | some w => fetchPassWord s c w
      | none => s) else s
  let s := (List.range 64).foldl (fun s ch => realignChannel s c gen ch) s
  match drift with
  | some (i, v) => countDrift s c 0 i v tag
  | none => s

/-! ## DEADLOCK (R266, R267, R539) -/

/-- A counter that is the fill counter of an enabled ring that may still fill (R266). -/
def ringOpen (s : State) (c i : Nat) : Bool :=
  let x := getCore s c
  (List.range 4).any fun t => ringEn s c t && ringCtr s c t == i &&
    (x.outst != 0 || (t == x.task && !x.fetchDead && (x.fetchCause == 0 || x.fetchCause == 2 || x.fetchCause == 3)))

/-- No source of the core can still change counter i (R266). -/
def ctrClosed (s : State) (c i : Nat) : Bool :=
  let x := getCore s c
  !(x.cmds.any fun k => match k.sig with | some (j, _) => j == i | none => false) && !ringOpen s c i &&
    !((List.range 8).any fun n => getB s (garReg c n) 10 && getF s (garReg c n) 4 0 == i) &&
    !((List.range 64).any fun ch => (chanRole s c ch == 2 || chanRole s c ch == 3) && getF s (coreReg c (oCoreChan + 8 * ch)) 61 57 == i) &&
    !getB s (coreReg c oCoreCtrExt) i

/-- The core waits, and its wait is closed as far as the core itself goes; a realign wait never is (R266). -/
def waitClosed (s : State) (c : Nat) : Bool :=
  let x := getCore s c
  x.mode == .run && x.waitSince.isSome && !x.sbHold && ctrClosed s c (wWaitCtr (curWord s c))

/-- The conditions of R267 hold in this cycle. -/
def deadNow (s : State) (k : Nat) : Bool :=
  let y := getClu s k
  let cs := cluCores k
  !cluFenced s k && getB s (cluReg k oCluWatchCtl) 0 && (y.mode == .waitdp || y.mode == .halted || y.mode == .faulted) &&
    y.incs.isEmpty && y.tsstOut.isEmpty &&
    cs.all (fun c => let x := getCore s c
      x.summ.isEmpty && (x.mode == .faulted || x.mode == .stopped || x.mode == .held || waitClosed s c)) &&
    cs.any fun c => (getCore s c).mode == .held || waitClosed s c

/-- Set bits of a mask from a list of cluster-local numbers. -/
def maskOf (l : List Nat) : Nat := l.foldl (fun m i => m ||| 2 ^ i) 0

/-- The continuation records of a DEADLOCK (R539): two cores each. -/
def deadMore (head : FaultRec) : List (Nat × BitVec 20) → List FaultRec
  | (c, t) :: (d, u) :: l => { head with cont := true, loc := c, tag := t, detail := d * 2 ^ 20 + u.toNat } :: deadMore head l
  | [(c, t)] => [{ head with cont := true, loc := c, tag := t, detail := 0xFFFFFFFFFF }]
  | [] => []

/-- DEADLOCK (R267): the hang has lasted 16 cycles; the waiting cores fault and the registers record both sets. A hang that
goes on is raised once. -/
def execDeadlock (k : CluId) (s : State) : Out :=
  if s.clocksOn && (getClu s k).closedFor == 16 && deadNow s k then
    let ws := (List.range 64).filter fun i => waitClosed s (coreOfClu k i)
    let hs := (List.range 64).filter fun i => (getCore s (coreOfClu k i)).mode == .held
    let cores := (ws.map fun i => (coreOfClu k i, wTag (curWord s (coreOfClu k i)))) ++
      hs.map fun i => (coreOfClu k i, (getCore s (coreOfClu k i)).arrTag)
    let first := cores.headD (coreOfClu k 0, 0#20)
    let head := coreRec s first.1 .deadlock first.2 (hs.length * 2 ^ 8 + ws.length)
    let s := queueGroup s (k.val / 256) head (deadMore head cores)
    let s := ws.foldl (fun s i => let c := coreOfClu k i; coreStop s c .deadlock (wTag (curWord s c)) 0 0) s
    let r := cluReg k oCluDeadlock
    let s := addF s r 47 32 1
    let s := if getB s r 63 then s else
      setReg (setReg (setF (setF s r 31 0 s.cycle) r 63 63 1) (cluReg k oCluDlWaiting) (BitVec.ofNat 64 (maskOf ws)))
        (cluReg k oCluDlHeld) (BitVec.ofNat 64 (maskOf hs))
    .next (modClu s k fun y => { y with closedFor := 17 })
  else .next s

/-! ## Fences (R28, R29, R246, R331) -/

/-- Is an address inside what a fence of these clusters power-gates: core windows, steward memory, the inbox (R28, R246)? -/
def gated (inClu : Nat → Bool) (a : Nat) : Bool :=
  match decodeAddr a with
  | some (.core c _) => inClu (cluOf c)
  | some (.steward k _) => inClu k
  | some (.cluster k o) => inClu k && decide (oCluInbox ≤ o)
  | _ => false

/-- Replies that cores of the clusters had not yet sent: reads by other masters, and rows for neighbours outside them. -/
def unsent (inClu : Nat → Bool) (x : CoreSt) : Nat :=
  (x.bgr.filter fun r => match r.src with
    | .master .. => true
    | .rpull _ p _ _ => !inClu (cluOf p)
    | _ => false).length

/-- Beats that stand in a core's inputs and arrival queues. -/
def standing (x : CoreSt) : List MBeat := x.inb.map (·.beat) ++ x.aq.flatten.map (·.beat)

/-- A credit goes back to a beat's sender, usable h + 1 cycles after cycle `a` (R284); `cut` tells of a fence (R304). Rows
that a link port has written (channel 64) take no credit (R386). -/
def returnCredit (s : State) (b : MBeat) (a : Nat) (cut : Bool) : State :=
  if 64 ≤ b.sendChan then s else modCore s b.src fun x => { x with credIn := x.credIn ++ [⟨b.sendChan, a + b.hops + 1, cut⟩] }

/-- The cores of fenced clusters lose their state; beats that stood in them return their credits with the notice. -/
def gateClusters (s : State) (inClu : Nat → Bool) : State :=
  let gone := (smKeys s.cores).filter fun c => inClu (cluOf c)
  let beats := (gone.map fun c => standing (getCore s c)).flatten
  let drops := (gone.map fun c => unsent inClu (getCore s c)).sum
  let f := match gone with | c :: _ => fieldOfCore c | [] => 0
  let s := { s with mem := s.mem.filter (fun m => !gated inClu m.1), regs := s.regs.filter (fun m => !gated inClu m.1)
                    shadow := s.shadow.filter (fun m => !gated inClu m.1), cores := s.cores.filter (fun m => !inClu (cluOf m.1))
                    clus := s.clus.filter (fun m => !inClu m.1) }
  let s := addF s (fieldReg f oFldFenceDrops) 63 0 drops
  (beats.filter fun b => !inClu (cluOf b.src)).foldl (fun s b => returnCredit s b s.cycle true) s

/-- A cluster's fence takes effect (R246). -/
def applyCluFence (s : State) (k cause : Nat) : State :=
  let s := gateClusters s (· == k)
  let s := setReg s (cluReg k oCluFenceStatus) (BitVec.ofNat 64 (cause % 256 * 256 + 1))
  queueFault s (k / 256) (fieldRec s (k / 256) 2 .fenceApplied false true (k % 256 * 256 + cause % 256))

/-- The gateway of a fenced field (R331): entries of its own cores are dropped, others complete with TARGET_FENCED and are
counted. -/
def gatewayFence (s : State) (f : Nat) : State :=
  let ts := (getField s f).txns
  let n := (ts.filter fun t => t.cls != 0).length
  let s := modField s f fun x => { x with txns := [] }
  let s := addF s (fieldReg f oGwFenceCount) 63 0 n
  if n = 0 then s else answer s .targetFenced []

/-- A field's fence takes effect (R28, R331). -/
def applyFldFence (s : State) (f cause : Nat) : State :=
  let s := gateClusters s (fun k => k / 256 == f)
  let s := (List.range 256).foldl (fun s k =>
    let r := cluReg (256 * f + k) oCluFenceStatus
    if getB s r 0 then s else setReg s r (BitVec.ofNat 64 (7 * 256 + 1))) s
  let s := setReg s (fieldReg f oFldFenceStatus) (BitVec.ofNat 64 (cause % 256 * 256 + 1))
  let s := setF s (modReg oModFieldFenced) f f 1
  let s := modField (gatewayFence s f) f fun x => { x with fenceReq := none }
  raiseAlert (queueFault s f (fieldRec s f 2 .fenceApplied false true (0xFFFF * 256 + cause % 256))) 5

/-- Fences a field at once, for a cause that firmware or a check has found. -/
def fenceField (s : State) (f cause : Nat) : State := if fieldFenced s f then s else applyFldFence s f cause

/-- Skip column of a row. -/
def skipOf (s : State) (f row : Nat) : Nat := getF s (fieldReg f (oFldRepairRow + 8 * (row / 8))) (8 * (row % 8) + 7) (8 * (row % 8))

/-- The physical column of a logical column in a row that skips column `skip` (R20). -/
def physCol (skip cx : Nat) : Nat := if cx < skip then cx else cx + 1

/-- Runtime firmware appends the core or the channel for which it fences a field in service to the service repair record
(R25, R30). Which of the field's it is, the fence does not say: a free value (log 123). A core is recorded by its row and
physical column. -/
def noteDefect (s : State) (f cause : Nat) : State :=
  let v := (Config.freeValue s.freeCtr).toNat
  let d := if cause = 3 then Defect.channel f (v % 32) else Defect.core f (v % 128) (physCol (skipOf s f (v % 128)) (v / 128 % 128))
  if cause = 2 ∨ cause = 3 then { s with freeCtr := s.freeCtr + 1, boot := { s.boot with defects := s.boot.defects ++ [d] } } else s

/-- A fence that was written takes effect on a field. -/
def fenceWritten (s : State) (f cause : Nat) : State := applyFldFence (noteDefect s f (cause % 256)) f cause

/-- A field's fence write: with fence = 1 on a field not yet fenced it asks for the fence; while the clocks are stopped the
fence takes effect at once (R29). -/
def fldFenceWrite (s : State) (f : Nat) (v : W64) : State :=
  if bitOf v.toNat 0 && !fieldFenced s f && (getField s f).fenceReq.isNone then
    if s.clk.kind = 0 then modField s f fun x => { x with fenceReq := some (bitsOf v.toNat 15 8) }
    else fenceWritten s f (bitsOf v.toNat 15 8)
  else s

/-- A cluster's fence write, likewise. -/
def cluFenceWrite (s : State) (k : Nat) (v : W64) : State :=
  if bitOf v.toNat 0 && !cluFenced s k && (getClu s k).fenceReq.isNone then
    if s.clk.kind = 0 then modClu s k fun x => { x with fenceReq := some (bitsOf v.toNat 15 8) }
    else applyCluFence s k (bitsOf v.toNat 15 8)
  else s

/-- FLD_FENCE_CTL (R28). -/
def execFldFenceCtl (m : Master) (f : FieldId) (v : W64) (s : State) : Out :=
  .next (writeAccess m (fieldReg f oFldFenceCtl) s fun s => (.ok, (fldFenceWrite s f v)))

/-- CLU_FENCE_CTL (R246). -/
def execCluFenceCtl (m : Master) (k : CluId) (v : W64) (s : State) : Out :=
  .next (writeAccess m (cluReg k oCluFenceCtl) s fun s => (.ok, (cluFenceWrite s k v)))

/-- FENCE_APPLIED (R28, R246): a fence that was asked for takes effect, on the field or on one of its clusters. -/
def execFenceApplied (f : FieldId) (clu : Option (Fin 256)) (s : State) : Out :=
  match clu with
  | none => match (getField s f).fenceReq with
    | some cause => .next (fenceWritten s f cause)
    | none => .next s
  | some j =>
    let k := 256 * f.val + j.val
    match (getClu s k).fenceReq with
    | some cause => .next (applyCluFence s k cause)
    | none => .next s

end Sys2Proof.Machine
end

