-- ==== Sys2Proof/Machine/Mesh.lean ====
section
/-! DEFINITION. Machine/Mesh.lean: the send port, routers, crossings, arrival queues, the lander, plain and combining
channels, credits (chapter 9). -/
namespace Sys2Proof.Machine
open Sys2Proof

/-- The mesh of a core works (R305). -/
def meshRuns (s : State) : Bool := s.clocksOn

/-! ## Send port (R281 to R283, R304) -/

/-- The MSEND whose next row enters the send buffer now: begun, its row read two cycles ago. -/
def sendingCmd (s : State) (c : Nat) : Option Cmd :=
  match (getCore s c).cmds.find? fun k => k.eng == .send && k.begun.isSome && decide (k.rows < sendLen k) with
  | some k => if k.begun.getD 0 + k.rows + 2 ≤ s.cycle then some k else none
  | none => none

/-- MSEND (R44, R81, R282): the next row of the MSEND in progress enters the send buffer, two cycles after its read. -/
def execMsend (c : CoreId) (s : State) : Out :=
  if !engRuns s c then .next s
  else match sendingCmd s c with
    | none => .next s
    | some k => match decodeMove k.slot with
      | some (.msend src _ ch) =>
        let n := sendLen k
        let b : MBeat := { first := k.rows == 0, last := k.rows + 1 == n, gen := k.addr, dstChan := getF s (chanReg c ch) 54 49
                           dst := getF s (chanReg c ch) 48 29, src := c, tag := k.tag
                           data := cmdRow s c k (k.tbase + src + k.rows), ok := true, sendChan := ch, hops := 0 }
        let r : SendRow := ⟨b, k.issued, k.begun.getD 0 + k.rows + 2⟩
        .next (modCore s c fun x => { x with
          sendBuf := x.sendBuf ++ [r], cmds := updFirst (fun y => y == k) (fun y => { y with rows := y.rows + 1 }) x.cmds })
      | _ => .next s

/-- Destination that the slot table of a core gives an input in a cycle: inputs 0 north, 1 east, 2 south, 3 west, 4 send
(R277, R307). -/
def slotDest (s : State) (c input cy : Nat) : Nat := getF s (coreReg c (oCoreSlot + 8 * (cy % 64))) (3 * input + 2) (3 * input)

/-- Cycles of a link to a neighbour: one in a field, seven across a field edge (R279). -/
def hopLat (c d : Nat) : Nat := if fieldOfCore c = fieldOfCore d then 1 else 7

/-- Lag of a field, in half cycles since the last phase reset (R346); FLD_CLK_STATUS.lag shows it in 8 bits. -/
def lagOf (s : State) (f : Nat) : Nat := (getField s f).lag

/-- The field across an edge: 0 north, 1 east, 2 south, 3 west. -/
def fieldAcross (f e : Nat) : Option Nat :=
  if e = 0 then (if f / 8 = 0 then none else some (f - 8))
  else if e = 1 then (if f % 8 = 7 then none else some (f + 1))
  else if e = 2 then (if f / 8 = 7 then none else some (f + 8))
  else (if f % 8 = 0 then none else some (f - 1))

/-- Displacement between two fields, in half cycles (R346). -/
def dispOf (s : State) (f g : Nat) : Nat := Int.natAbs ((lagOf s f : Int) - lagOf s g)

/-- FLD_XING_STATUSe.max_disp of an edge takes in a displacement (R286, R308, R346). -/
def noteDisp (s : State) (f e d : Nat) : State :=
  let r := fieldReg f (oFldXingStatus + 8 * e)
  if getF s r 7 0 < d then setF s r 7 0 (min 255 d) else s

/-- A field's lag grows by one half cycle, and each of its edges notes the displacement (R346). -/
def addLag (s : State) (f : Nat) : State :=
  let s := modField s f fun x => { x with lag := x.lag + 1 }
  let s := setF s (fieldReg f oFldClkStatus) 7 0 (min 255 (lagOf s f))
  (List.range 4).foldl (fun s e => match fieldAcross f e with
    | some g => noteDisp (noteDisp s f e (dispOf s f g)) g ((e + 2) % 4) (dispOf s f g)
    | none => s) s

/-- The check of a crossing FIFO's pointers as a beat is written or read (R286, R350): beyond six half cycles it raises
SLACK_EXHAUSTED, before any beat is lost, and the module takes a forced stop. `e` is the sender's edge. -/
def crossCheck (s : State) (f g e : Nat) : Bool × State :=
  let d := dispOf s f g
  if 6 < d then
    let s := addF s (fieldReg f (oFldXingStatus + 8 * e)) 47 32 1
    let s := queueFault s f (fieldRec s f 2 .slackExhausted true false (d % 256 * 2 ^ 16 + e * 2 ^ 8 + f))
    (false, forcedStop s .slack)
  else (true, s)

/-- The check as a beat is read at the receiving field's side; a beat from within the field passes none (R286). -/
def readCheck (s : State) (c dir : Nat) : Bool × State :=
  match neighbour c dir with
  | some d => if fieldOfCore d = fieldOfCore c then (true, s) else crossCheck s (fieldOfCore d) (fieldOfCore c) ((dir + 2) % 4)
  | none => (true, s)

/-- A beat leaves a router by a neighbour link in cycle `cy`. It reaches the next router's input one or seven cycles later;
where no link is, it is lost (R276, R279). -/
def leaveBy (s : State) (c dir cy : Nat) (b : MBeat) : State :=
  match neighbour c dir with
  | none => s
  | some d =>
    let h := hopLat c d
    let s := actShared s (fieldOfCore c) 20 1
    let s := if h = 1 then s else actShared s (fieldOfCore c) 21 1
    let put (s : State) : State :=
      modCore s d fun y => { y with inb := y.inb ++ [⟨(dir + 2) % 4, cy + h, { b with hops := b.hops + h }⟩] }
    if h = 1 then put s
    else put (crossCheck s (fieldOfCore c) (fieldOfCore d) dir).2

/-- The head row of the send buffer, if it has entered. -/
def sendHead (s : State) (c : Nat) : Option SendRow :=
  match (getCore s c).sendBuf with
  | r :: _ => if r.enters ≤ s.cycle then some r else none
  | [] => none

/-- A row of the send buffer is gone; the last row of a message completes its MSEND (R283). -/
def sendGone (s : State) (c : Nat) (r : SendRow) : State :=
  modCore s c fun x => { x with
    sendBuf := x.sendBuf.tail, sentAt := some s.cycle
    cmds := if r.beat.last then updFirst (fun k => k.eng == .send && k.issued == r.issued) (fun k => { k with done := true, due := s.cycle }) x.cmds
      else x.cmds }

/-- SEND_ROW_DEPARTURE (R283): the head row departs where the slot grants its direction and a credit is held; on a channel
that has met a fence it is discarded (R304). -/
def execSendRowDeparture (c : CoreId) (s : State) : Out :=
  if !meshRuns s || coreFenced s c || (getCore s c).sentAt == some s.cycle then .next s
  else match sendHead s c with
    | none => .next s
    | some r =>
      let ch := r.beat.sendChan
      let st := chStat c ch
      if getB s st 63 then
        .next (sendGone (if r.beat.last then addF s (chMsg c ch) 31 0 1 else s) c r)
      else if slotDest s c 4 s.cycle = chDir s c ch + 1 ∧ 0 < getF s st 39 34 then
        let s' := setF s st 39 34 (getF s st 39 34 - 1)
        let s' := if r.beat.last then addF (addF s' (chMsg c ch) 63 32 1) st 7 0 1 else s'
        .next (leaveBy (sendGone s' c r) c (chDir s c ch) s.cycle r.beat)
      else .next s

/-! ## Routers (R277 to R279, R285, R304) -/

/-- The next beat at an input of a core. -/
def inputBeat (s : State) (c dir : Nat) : Option InBeat :=
  (getCore s c).inb.find? fun b => b.dir == dir && decide (b.cy ≤ s.cycle)

/-- A beat enters an arrival queue; a full queue discards it, and its credit goes back (R285, R287). -/
def arriveBeat (s : State) (c dir cy : Nat) (b : MBeat) : State :=
  let q := (getCore s c).aq.getD dir []
  if 32 ≤ q.length then
    let s := returnCredit s b cy false
    let s := if b.dst = c then setF s (chStat c b.dstChan) 58 58 1 else s
    meshError s c 4 b.dstChan b.src b.tag
  else modCore s c fun x => { x with aq := x.aq.set dir (q ++ [⟨b, cy⟩]) }

/-- ROUTER_BEAT (R279): the next beat at an input is forwarded, delivered or discarded by the slot entry of its cycle.
`upset` says that an error on the link has spoilt it, which its check bits show. A beat that has come over a field edge is
read out of the crossing FIFO, whose check comes first (R286). -/
def execRouterBeat (c : CoreId) (dir : Fin 4) (upset : Bool) (s : State) : Out :=
  if !meshRuns s then .next s
  else match inputBeat s c dir with
    | none => .next s
    | some i =>
      let b := { i.beat with ok := i.beat.ok && !upset }
      match readCheck s c dir with
      | (false, s) => .next s
      | (true, s) =>
      let s := modCore s c fun x => { x with inb := dropOne i x.inb }
      if coreFenced s c then .next (returnCredit s b i.cy true)
      else match slotDest s c dir i.cy with
        | 1 => .next (leaveBy s c 0 i.cy b)
        | 2 => .next (leaveBy s c 1 i.cy b)
        | 3 => .next (leaveBy s c 2 i.cy b)
        | 4 => .next (leaveBy s c 3 i.cy b)
        | 5 => .next (arriveBeat s c dir i.cy b)
        | _ => .next (meshError s c 2 b.dstChan b.src b.tag)

/-- CREDIT_RETURN (R284, R304): a credit whose cycle has come is usable at its sender again; a cut port's notice marks the
channel. -/
def execCreditReturn (c : CoreId) (s : State) : Out :=
  if !meshRuns s then .next s
  else match (getCore s c).credIn.find? fun k => decide (k.at_ ≤ s.cycle) with
    | none => .next s
    | some k =>
      let s := modCore s c fun x => { x with credIn := dropOne k x.credIn }
      let st := chStat c k.chan
      let s := setF s st 39 34 (min 32 (getF s st 39 34 + 1))
      .next (if k.cut then setF s st 63 63 1 else s)

/-! ## Lander (R287 to R290) -/

/-- A message is discarded: counted in drops of its receive channel, and its error bit set (R289). -/
def dropMessage (s : State) (c ch bit : Nat) : State :=
  setF (if chanRole s c ch = 2 ∨ chanRole s c ch = 3 then addF s (chMsg c ch) 31 0 1 else s) (chStat c ch) bit bit 1

/-- The checks of a message's first row (R289): what they leave, and whether the message lands. -/
def checkFirst (s : State) (c : Nat) (b : MBeat) : Bool × State :=
  if !b.ok then (false, meshError (dropMessage s c b.dstChan 61) c 1 b.dstChan b.src b.tag)
  else if b.dst ≠ c ∨ ¬ (chanRole s c b.dstChan = 2 ∨ chanRole s c b.dstChan = 3) then
    (false, meshError (dropMessage s c b.dstChan 60) c 2 b.dstChan b.src b.tag)
  else if b.gen ≠ getF s (coreReg c oCoreCtrStatus) 19 16 then
    let s := dropMessage s c b.dstChan 62
    let s := trace s c 0x08 (some b.tag) (b.dstChan + b.gen * 2 ^ 8 + b.src * 2 ^ 20)
    (false, queueFault s (fieldOfCore c)
      (coreEvent s c .staleMessage b.tag (b.dstChan * 2 ^ 50 + b.src * 2 ^ 20 + b.gen) (c * 64 + b.dstChan)))
  else (true, s)

/-- LANDER_TAKE (R288, R289): a free lane takes the eligible message and checks its first row; lane 0 chooses first. -/
def execLanderTake (c : CoreId) (lane : Fin 2) (s : State) : Out :=
  let first := lane.val = 1 && laneIdle s c 0 && (takeDir s c 0).isSome
  if !meshRuns s || coreFenced s c || !laneIdle s c lane || first then .next s
  else match takeDir s c lane with
    | none => .next s
    | some d => match queueHead s c d with
      | none => .next s
      | some b =>
        let (ok, s) := checkFirst s c b
        let plain := chanRole s c b.dstChan = 2 || roundTaken s c b.dstChan == 0
        .next (modCore s c fun x => { x with lanes := x.lanes.set lane (some ⟨d, b.dstChan, 0, s.cycle, !ok, plain, []⟩) })

/-- A row leaves its queue: its credit goes back, and the lane is free after the message's last row. -/
def rowLeaves (s : State) (c lane : Nat) (l : Lane) (b : MBeat) : State :=
  let s := returnCredit s b s.cycle false
  modCore s c fun x => { x with
    aq := x.aq.set l.dir (x.aq.getD l.dir []).tail
    lanes := x.lanes.set lane (if b.last then none else some { l with rows := l.rows + 1, next := s.cycle + 1 })
    laneFree := if b.last then x.laneFree.set lane (s.cycle + 1) else x.laneFree
    laneLast := if b.last then x.laneLast.set lane l.chan else x.laneLast }

/-- A plain channel's message has landed (R293). -/
def plainDone (s : State) (c ch n : Nat) (b : MBeat) : State :=
  let st := chStat c ch
  let s := addF s (chMsg c ch) 63 32 1
  let s := setF s st 29 21 ((getF s st 29 21 + n) % chSize s c ch)
  let s := addF s st 7 0 1
  let s := trace s c 0x07 (some b.tag) (ch + n % 64 * 2 ^ 8 + b.src * 2 ^ 20)
  ctrBump s c (chCtr s c ch) 1

/-- A combining channel's message has landed: the round's count, and the counter when the round is full (R294). -/
def roundDone (s : State) (c ch : Nat) : State :=
  let st := chStat c ch
  let s := addF s (chMsg c ch) 63 32 1
  let n := getF s st 7 0 + 1
  if n = chN s c ch then ctrBump (setF s st 7 0 0) c (chCtr s c ch) 1 else setF s st 7 0 n

/-- The rest of a message is discarded from this row on (R289). -/
def failRow (s : State) (c lane : Nat) (l : Lane) (b : MBeat) (kind bit : Nat) : State :=
  let s := meshError (dropMessage s c l.chan bit) c kind l.chan b.src b.tag
  rowLeaves s c lane { l with drop := true } b

/-- Sum of a destination row and a message row in FP32 (R295). -/
def addRow32 (a b : List Byte) : List Byte :=
  ((List.range 8).map fun i =>
    natLe 4 (fadd (BitVec.ofNat 32 (leNat ((a.drop (4 * i)).take 4))) (BitVec.ofNat 32 (leNat ((b.drop (4 * i)).take 4))) .rne 0).1.toNat).flatten

/-- Sum of a three-row run of exact partials (R295). -/
def addRun (a b : List Byte) : List Byte :=
  ((List.range 8).map fun i =>
    natLe 12 (addPartial (BitVec.ofNat 96 (leNat ((a.drop (12 * i)).take 12))) (BitVec.ofNat 96 (leNat ((b.drop (12 * i)).take 12)))).toNat).flatten

/-- A row lands as it is, if the combiner accepts it in this cycle and no fill waits before it (R99, R290). -/
def landPlain (s : State) (c lane : Nat) (l : Lane) (b : MBeat) : State :=
  let plainCh := chanRole s c l.chan = 2
  let row := laneRow s c l
  let fillsWait := (getCore s c).bgw.any fun w => bgRank w.src == 0
  if fillsWait || combPending s c row then s
  else match acceptWrite s c 1 row (wholeRow b.data) with
    | (false, s) => s
    | (true, s) =>
      let s := actShared s (fieldOfCore c) 22 1
      let s := rowLeaves (digestWrite s c row (wholeRow b.data) 0 5 b.tag none) c lane l b
      if !b.last then s
      else if plainCh then plainDone s c l.chan (l.rows + 1) b
      else trace (roundDone s c l.chan) c 0x07 (some b.tag) (l.chan + (l.rows + 1) % 64 * 2 ^ 8 + b.src * 2 ^ 20)

/-- A row of a later message of a round: it reads its destination row as it leaves, and its sum lands three cycles on; an
exact run lands when its third row has left (R296). -/
def landCombine (s : State) (c lane : Nat) (l : Lane) (b : MBeat) : State :=
  let row := laneRow s c l
  if combPending s c row || !bgReadFree s c (rowSide row) then s
  else
    let old := rdRow s c row
    let s := act (actShared (takeRead s c (rowSide row)) (fieldOfCore c) 23 1) c 17 1
    if !chExact s c l.chan then
      let s := modCore s c fun x => { x with combs := x.combs ++ [⟨l.chan, row, addRow32 old b.data, s.cycle + 3, b.last, b.tag, b.src⟩] }
      rowLeaves s c lane l b
    else
      let run := l.run ++ [(old, b.data)]
      if run.length < 3 then rowLeaves s c lane { l with run := run } b
      else
        let sum := addRun (run.map (·.1)).flatten (run.map (·.2)).flatten
        let rs := (List.range 3).map fun i =>
          (⟨l.chan, row - 2 + i, (sum.drop (32 * i)).take 32, s.cycle + 3 + i, b.last && i == 2, b.tag, b.src⟩ : CombRow)
        rowLeaves (modCore s c fun x => { x with combs := x.combs ++ rs }) c lane { l with run := [] } b

/-- ROW_LANDING (R289, R290, R296): the next row of a lane's message leaves its queue, where it may. -/
def execRowLanding (c : CoreId) (lane : Fin 2) (s : State) : Out :=
  if !meshRuns s || coreFenced s c then .next s
  else match (getCore s c).lanes.getD lane none with
    | none => .next s
    | some l =>
      if s.cycle < l.next then .next s
      else match queueHead s c l.dir with
        | none => .next s
        | some b =>
          if l.drop then .next (rowLeaves s c lane l b)
          else if !b.ok then .next (failRow s c lane l b 1 61)
          else if !lengthOk s c l b then .next (failRow s c lane l b 3 59)
          else if l.plain then .next (landPlain s c lane l b)
          else .next (landCombine s c lane l b)

/-- COMBINE_ROW (R296): a combined row whose cycle has come lands through the combiner, after fills and mesh arrivals (R99); the last row of a
message counts in its round. -/
def execCombineRow (c : CoreId) (s : State) : Out :=
  if !meshRuns s || coreFenced s c then .next s
  else match (getCore s c).combs.find? fun r => decide (r.at_ ≤ s.cycle) with
    | none => .next s
    | some r =>
      if ((getCore s c).bgw.any fun w => bgRank w.src == 0) || arrivalWaits s c then .next s
      else match acceptWrite s c 2 r.row (wholeRow r.data) with
        | (false, s) => .next s
        | (true, s) =>
          let s := modCore (digestWrite s c r.row (wholeRow r.data) 0 6 r.tag none) c fun x => { x with combs := dropOne r x.combs }
          .next (if r.last then trace (roundDone s c r.chan) c 0x07 (some r.tag) (r.chan + chSize s c r.chan % 64 * 2 ^ 8 + r.src * 2 ^ 20) else s)

end Sys2Proof.Machine
end

