-- ==== Sys2Proof/Machine/Gateway.lean ====
section
/-! DEFINITION. Machine/Gateway.lean: cluster ports, field gateways, channels, ECC, scrubbing, probes (chapter 10). -/
namespace Sys2Proof.Machine
open Sys2Proof

/-! ## Classes and refusals (R324, R326) -/

/-- Service class of a master outside the cores (R324); remote modules and the debug port go with firmware (DESIGN CHOICE:
the table names no class for them). -/
def classOf : Master → Nat
  | .host => 2 | .group _ => 3 | _ => 1

/-- Register fields of a field's gateway, by class. -/
def clsCount (f k : Nat) : Nat := fieldReg f (oGwClassCount + 0x10 * k)
/-- GW_CLASSk_WAIT. -/
def clsWait (f k : Nat) : Nat := fieldReg f (oGwClassWait + 0x10 * k)

/-- Does a transaction hold a tracker entry? -/
def inTracker (t : Txn) : Bool := t.stage == .tracker || t.stage == .answered

/-- Tracker entries of a class. -/
def heldBy (x : FieldSt) (k : Nat) : Nat := (x.txns.filter fun t => inTracker t && t.cls == k).length

/-- Bytes that a class has sent in the current microsecond. -/
def spent (s : State) (x : FieldSt) (k : Nat) : Nat :=
  if x.budget.1 = quartz s / 1000 then (if k = 2 then x.budget.2.1 else x.budget.2.2) else 0

/-- A brace lasts: its dip has not ended (R331, R500). -/
def inBrace (s : State) : Bool := s.pwr.brace.isSome && !s.pwr.dipOver

/-- The gateway refuses a host or RDMA request with BUSY (R326, R331). -/
def gwBusy (s : State) (f k : Nat) : Bool :=
  let x := getField s f
  if k = 2 then getB s (fieldReg f oGwStatus) 44 || inBrace s ||
    decide (getF s (fieldReg f oGwClassCtl) 43 32 ≤ heldBy x 2) || decide (getF s (fieldReg f oGwBudget) 63 32 ≤ spent s x 2)
  else if k = 3 then getB s (fieldReg f oGwStatus) 44 || inBrace s ||
    decide (getF s (fieldReg f oGwClassCtl) 27 16 ≤ heldBy x 3) || decide (getF s (fieldReg f oGwBudget) 31 0 ≤ spent s x 3)
  else false

/-- Counts the bytes of a host or RDMA request against its budget. -/
def spend (s : State) (f k n : Nat) : State :=
  let x := getField s f
  let us := quartz s / 1000
  let h := spent s x 2
  let r := spent s x 3
  if k = 2 then setField s f { x with budget := (us, h + n, r) }
  else if k = 3 then setField s f { x with budget := (us, h, r + n) }
  else s

/-- Granules that bytes a to a + len − 1 touch. -/
def granulesOf (a len : Nat) : Nat := if len = 0 then 0 else (a + len - 1) / 64 - a / 64 + 1

/-- A master's request enters the gateway input, or is refused with BUSY (R326). -/
def masterTxn (s : State) (k : Nat) (dest : TxnDest) (write : Bool) (a len : Nat) (data : List Byte) : Status × State :=
  let f := a / 0x400000000
  if gwBusy s f k then (.busy, addF s (clsCount f k) 31 0 1)
  else
    let x := getField s f
    let t : Txn := { id := x.txnNext, cls := k, core := 0, write := write, addr := a, len := len, tag := 0#20, dest := dest
                     stage := .input, left := List.range (granulesOf a len)
                     data := if write then data else List.replicate len 0, status := .ok, sent := s.ns, admitted := 0 }
    (.ok, spend (setField s f { x with txns := x.txns ++ [t], txnNext := x.txnNext + 1 }) f k len)

/-! ## Cluster port (R312, R314) -/

/-- Replaces a transaction. -/
def setTxn (x : FieldSt) (t : Txn) : FieldSt := { x with txns := x.txns.map fun u => if u.id = t.id then t else u }

/-- Replaces a transaction and moves it behind the others, which keeps the list in order of arrival at its new stage. -/
def moveTxn (x : FieldSt) (t : Txn) : FieldSt := { x with txns := x.txns.filter (·.id ≠ t.id) ++ [t] }

/-- Requests that wait in cores of the cluster leave for the port as long as it has room (R312): at most as many as it holds. -/
def refillPort (k : Nat) : Nat → State → State
  | 0, s => s
  | n + 1, s => match cluTxns s k .core with
    | t :: _ =>
      if portRoom s k 1 (txnBeats t) then
        refillPort k n (modField s (k / 256) fun x => setTxn x { t with stage := .port, sent := s.ns, leftAt := s.cycle })
      else s
    | [] => s

/-- The access table lets a compiled transaction in, granule by granule (R459, R461). -/
def compiledGranted (s : State) (t : Txn) : Bool :=
  t.left.all fun i => granted s (.compiled (Fin.ofNat 4 (getCore s t.core).task)) t.write
    (.stacked (t.addr / 0x400000000) ((t.addr / 64 + i) * 64 % 0x400000000)) ((t.addr / 64 + i) * 64) 64

/-- A compiled request reaches the gateway input, where its table is asked before any class rule (R324, R461). -/
def arriveTxn (s : State) (f : Nat) (t : Txn) : State :=
  if compiledGranted s t then modField s f fun x => moveTxn x { t with stage := .input }
  else
    let p := Place.stacked f (t.addr % 0x400000000)
    let s := deny s p (.compiled (Fin.ofNat 4 (getCore s t.core).task)) t.write t.addr
    txnDenied (modField s f fun x => { x with txns := x.txns.filter (·.id ≠ t.id) }) t

/-- PORT_FORWARD (R314): the port's oldest request goes to the gateway input. -/
def execPortForward (k : CluId) (s : State) : Out :=
  if !s.clocksOn || cluFenced s k then .next s
  else match portTxns s k with
    | t :: _ => .next (refillPort k 64 (addF (arriveTxn s (k.val / 256) t) (cluReg k oCluMemStats) 31 0 1))
    | [] => .next (refillPort k 64 s)

/-! ## Admission (R312, R314, R315, R325) -/

/-- Module address of granule i of a transaction. -/
def granuleAt (t : Txn) (i : Nat) : Nat := (t.addr / 64 + i) * 64

/-- Granules waiting in the queue of a channel. -/
def queueLen (x : FieldSt) (ch : Nat) : Nat :=
  ((x.txns.filter (·.stage == .tracker)).map fun t => (t.left.filter fun i => chanOfAddr (granuleAt t i) == ch).length).sum

/-- The tracker and every channel queue that the request needs had room at the start of nanosecond `q`, and what has been
admitted since has left it: what was freed in that nanosecond counts for the next (R314). -/
def hasRoom (q : Nat) (x : FieldSt) (t : Txn) : Bool :=
  decide ((x.txns.filter inTracker).length + (if x.freedNow.1 = q then x.freedNow.2 else 0) < 2048) &&
    t.left.all fun i =>
      let ch := chanOfAddr (granuleAt t i)
      let freed := if smGet 0 ch x.chUsed = q + 1 then 1 else 0
      decide (queueLen x ch + freed + (t.left.filter fun j => chanOfAddr (granuleAt t j) == ch).length ≤ 640)

/-- The oldest request of a class at the input, once its path of 60 ns is over (R313). -/
def headOf (s : State) (x : FieldSt) (k : Nat) : Option Txn :=
  match x.txns.find? fun t => t.stage == .input && t.cls == k with
  | some t => if k != 0 || decide (t.sent + 60 ≤ s.ns) then some t else none
  | none => none

/-- Host and RDMA heads, oldest first. -/
def hostHeads (s : State) (x : FieldSt) : List Txn :=
  match headOf s x 2, headOf s x 3 with
  | some a, some b => if a.id < b.id then [a, b] else [b, a]
  | some a, none => [a]
  | none, some b => [b]
  | none, none => []

/-- Requests in the order in which the gateway would take them, with whether they go ahead of a compiled one (R325). -/
def admitOrder (s : State) (f : Nat) (x : FieldSt) : List (Txn × Bool) :=
  let comp := (headOf s x 0).toList
  let fw := if inBrace s then [] else (headOf s x 1).toList
  let hr := hostHeads s x
  let ahead := !comp.isEmpty
  (if ahead && decide (x.admWin.2.1 < getF s (fieldReg f oGwClassCtl) 63 56) then fw.map (·, true) else []) ++
    (if ahead && decide (x.admWin.2.2 < getF s (fieldReg f oGwClassCtl) 55 48) then hr.map (·, true) else []) ++
    comp.map (·, false) ++ fw.map (·, false) ++ hr.map (·, false)

/-- The window of 64 admissions moves on by one. -/
def windowStep (w : Nat × Nat × Nat) (cls : Nat) (ahead : Bool) : Nat × Nat × Nat :=
  let w := (w.1 + 1, w.2.1 + (ahead && cls == 1).toNat, w.2.2 + (ahead && (cls == 2 || cls == 3)).toNat)
  if w.1 = 64 then (0, 0, 0) else w

/-- Admission wait of a request admitted now (R313). -/
def waitOf (s : State) (t : Txn) : Nat := s.ns - t.sent - (if t.cls = 0 then 60 else 0)

/-- A request enters the tracker. -/
def admitTxn (s : State) (f : Nat) (t : Txn) (ahead : Bool) : State :=
  let w := waitOf s t
  let s := modField s f fun x =>
    let n := if x.admNow.1 = quartz s then x.admNow.2 else 0
    { moveTxn x { t with stage := .tracker, admitted := s.ns, data := if t.write then t.data else List.replicate t.len 0 }
      with admNow := (quartz s, n + 1), admWin := windowStep x.admWin t.cls ahead }
  let s := addF (addF s (clsCount f t.cls) 63 32 1) (clsWait f t.cls) 63 0 w
  if t.cls = 0 then addF s (coreReg t.core oCoreMemLat) 31 0 w else s

/-- One admission, if one is possible in this nanosecond: at most four. -/
def admitOne (s : State) (f : Nat) : State :=
  let x := getField s f
  if x.admNow.1 = quartz s ∧ 4 ≤ x.admNow.2 then s
  else match (admitOrder s f x).find? fun p => hasRoom (quartz s) x p.1 with
    | some (t, ahead) => admitTxn s f t ahead
    | none => s

/-- GATEWAY_ADMIT (R314, R325): the admissions of this nanosecond. -/
def execGatewayAdmit (f : FieldId) (s : State) : Out :=
  if fieldFenced s f || getB s (fieldReg f oGwStatus) 44 then .next s
  else .next ((List.range 4).foldl (fun s _ => admitOne s f) s)

/-! ## Service (R311, R315, R321, R322, R601) -/

/-- Records an ECC error in GW_ECC_LAST (R601). -/
def eccLast (s : State) (f : Nat) (uncorr scrub : Bool) (a : Nat) : State :=
  let r := fieldReg f oGwEccLast
  if getB s r 63 && (getB s r 62 || !uncorr) then s
  else setReg s r (BitVec.ofNat 64 (2 ^ 63 + uncorr.toNat * 2 ^ 62 + scrub.toNat * 2 ^ 61 + chanOfAddr a * 2 ^ 34 + a % 2 ^ 34))

/-- Is a granule poisoned? -/
def poisoned (s : State) (a : Nat) : Bool := (getField s (a / 0x400000000)).poison.contains (a / 64)

/-- Poisons a granule, counted in GW_ECC and for its channel. -/
def poisonGranule (s : State) (a : Nat) (scrub : Bool) : State :=
  let f := a / 0x400000000
  let s := modField s f fun x => { x with poison := if x.poison.contains (a / 64) then x.poison else x.poison ++ [a / 64] }
  let s := addF s (fieldReg f oGwEcc) 31 16 1
  let s := addF s (fieldReg f (oGwChanEcc + 8 * chanOfAddr a)) 31 0 1
  eccLast s f true scrub a

/-- Clears a granule's mark. -/
def clearPoison (s : State) (a : Nat) : State :=
  modField s (a / 0x400000000) fun x => { x with poison := x.poison.filter (· ≠ a / 64) }

/-- Counts a correction. -/
def countCorrected (s : State) (a : Nat) (scrub : Bool) : State :=
  let f := a / 0x400000000
  let s := if scrub then s else addF s (fieldReg f oGwEcc) 63 32 1
  eccLast (addF s (fieldReg f (oGwChanEcc + 8 * chanOfAddr a)) 63 32 1) f false scrub a

/-- The oldest granule in a channel's queue: transactions stand in order of admission (R315). -/
def nextGranule (x : FieldSt) (ch : Nat) : Option (Txn × Nat) :=
  (x.txns.filter (·.stage == .tracker)).findSome? fun t =>
    (t.left.find? fun i => chanOfAddr (granuleAt t i) == ch).map fun i => (t, i)

/-- Puts bytes into a list at a position. -/
def spliceBytes (l : List Byte) (i : Nat) (b : List Byte) : List Byte := l.take i ++ b ++ l.drop (i + b.length)

/-- A granule is read for a transaction (R322). -/
def readGranule (s : State) (t : Txn) (i : Nat) (ecc : Ecc) : State × Txn :=
  let g := granuleAt t i
  let lo := max g t.addr
  let hi := min (g + 64) (t.addr + t.len)
  let was := poisoned s g
  let s := if was then s else match ecc with
    | .clean => s
    | .corrected => countCorrected s g false
    | .uncorrectable => poisonGranule s g false
  if poisoned s g then
    (addF s (fieldReg (g / 0x400000000) oGwEcc) 15 0 1,
      { t with status := .poisoned, bad := if t.status = .poisoned then t.bad else g })
  else (s, { t with data := spliceBytes t.data (lo - t.addr) (rdBytes s lo (hi - lo)) })

/-- A granule is written for a transaction; a part of a poisoned granule changes nothing (R322, R579). -/
def writeGranule (s : State) (t : Txn) (i : Nat) (ecc : Ecc) : State × Txn :=
  let g := granuleAt t i
  let lo := max g t.addr
  let hi := min (g + 64) (t.addr + t.len)
  let whole := decide (hi - lo = 64)
  let bytes := (t.data.drop (lo - t.addr)).take (hi - lo)
  if whole then (wrBytes (clearPoison s g) lo bytes, t)
  else
    let s := if poisoned s g then s else match ecc with
      | .clean => s
      | .corrected => countCorrected s g false
      | .uncorrectable => poisonGranule s g false
    if poisoned s g then (s, { t with status := .poisoned }) else (wrBytes s lo bytes, t)

/-- GRANULE_SERVICE (R311, R315): a channel serves its oldest granule in a free slot; `ecc` is what the ECC pipeline finds
in what it reads. -/
def execGranuleService (f : FieldId) (ch : Fin 32) (ecc : Ecc) (s : State) : Out :=
  let x := getField s f
  let now := quartz s
  if fieldFenced s f || getB s (fieldReg f oGwStatus) 44 || decide (now % 128 < 3) || smGet 0 ch x.chUsed == now + 1 then .next s
  else match nextGranule x ch with
    | none => .next s
    | some (t, i) =>
      if s.ns < t.admitted + 10 then .next s
      else
        let s := actShared s f (if t.write then 25 else 24) 1
        let (s, t) := if t.write then writeGranule s t i ecc else readGranule s t i ecc
        let left := t.left.filter (· ≠ i)
        let t := { t with left := left, served := s.ns, stage := if left.isEmpty then .answered else .tracker }
        .next (modField s f fun x => { setTxn x t with chUsed := smPut 0 ch (now + 1) x.chUsed })

/-- A slot of Quartz time is a scrub slot (R311). -/
def scrubSlot (q : Nat) : Bool := q % 128 == 0 && q / 128 % 4 == 0

/-- A slot of Quartz time is a refresh slot: the other 88 reserved slots of a frame (R311). -/
def refreshSlot (q : Nat) : Bool := decide (q % 128 < 3) && !scrubSlot q

/-- REFRESH_SLOT (R311): a refresh slot carries no request, so it changes nothing that software sees but the count of such
slots (R497), once for each slot. -/
def execRefreshSlot (f : FieldId) (s : State) : Out :=
  let now := quartz s
  if fieldFenced s f || getB s (fieldReg f oGwStatus) 44 || !refreshSlot now || (getField s f).refUsed == now + 1 then .next s
  else .next (modField (actShared s f 26 1) f fun x => { x with refUsed := now + 1 })

/-- Rows that every channel's scrub engine has passed. -/
def scrubRows (x : FieldSt) : Nat := ((List.range 32).map fun c => smGet 0 c x.scrub).foldl min (smGet 0 0 x.scrub)

/-- Shows the scrub position, the rows that every channel has passed, and the passes since the last module reset (R334,
R335). -/
def showScrub (s : State) (f : Nat) : State :=
  let x := getField s f
  let m := scrubRows x
  let r := fieldReg f oGwScrub
  setF (setF s r 22 0 m) r 47 32 (m / 2 ^ 23 - x.scrubBase)

/-- First byte of the granule at a channel row of a channel (R310). -/
def granuleOf (f ch row : Nat) : Nat :=
  let base := row % 2 ^ 23 * 32
  memBase f + 64 * (base + ((List.range 32).find? fun i => chanOf (base + i) == ch).getD 0)

/-- SCRUB_SLOT (R323): in a scrub slot the channel's scrub engine reads the granule at its position; `ecc` is what it
finds. -/
def execScrubSlot (f : FieldId) (ch : Fin 32) (ecc : Ecc) (s : State) : Out :=
  let x := getField s f
  let now := quartz s
  if fieldFenced s f || getB s (fieldReg f oGwStatus) 44 || !getB s (fieldReg f oGwScrub) 63 || !scrubSlot now ||
      smGet 0 ch x.scrubUsed == now + 1 then .next s
  else
    let pos := smGet 0 ch x.scrub
    let a := granuleOf f ch pos
    let s := modField (actShared s f 27 1) f fun x => { x with scrubUsed := smPut 0 ch (now + 1) x.scrubUsed }
    let advance (s : State) : State :=
      showScrub (modField s f fun x => { x with scrub := smPut 0 ch (pos + 1) x.scrub, scrubFix := x.scrubFix.filter (· ≠ ch.val) }) f
    if x.scrubFix.contains ch.val then .next (advance s)
    else match (if poisoned s a then Ecc.clean else ecc) with
      | .clean => .next (advance s)
      | .corrected => .next (modField (countCorrected s a true) f fun x => { x with scrubFix := x.scrubFix ++ [ch.val] })
      | .uncorrectable =>
        let s := poisonGranule s a true
        let r := { fieldRec s f 3 .eccUncorrected false false (2 ^ 61 + ch.val * 2 ^ 48 + a) with source := f.val * 32 + ch.val }
        .next (advance (queueFault s f r))

/-! ## Returns (R313, R315, R331) -/

/-- The transaction of a kind that was served completely first, whose return path of 170 ns is over; core-bound ones wait
while the core clock stands (R331). -/
def nextAnswer (s : State) (f : Nat) (write : Bool) : Option Txn :=
  let ok (t : Txn) : Bool := t.stage == .answered && t.write == write && decide (t.served + 170 ≤ s.ns) && (t.cls != 0 || s.clocksOn)
  (((getField s f).txns.filter ok)).foldl (fun b t => match b with
    | none => some t
    | some u => if t.served < u.served then some t else b) none

/-- Service time of a transaction, and its record in the core (R313, R332). -/
def noteLatency (s : State) (t : Txn) : State :=
  let ns := 60 + (t.served - t.admitted) + 170
  let r := coreReg t.core oCoreMemLat
  let s := setF s r 47 32 ns
  if getF s r 63 48 < ns then setF s r 63 48 ns else s

/-- How an RDMA request is answered (R465). -/
def rdmaAnswer (s : State) (link : Nat) (st : Status) (data : List Byte) : State :=
  let r := linkReg link oSvcRdmaNaks
  match st with
  | .ok => answer s .ok data
  | .nakInvalid => answer (addF s r 15 0 1) .nakInvalid []
  | .accessDenied | .nakAccess => answer (addF s r 47 32 1) .nakAccess []
  | .busy => answer (addF s r 63 48 1) .rnrNak []
  | _ => answer (addF s r 31 16 1) .nakOperational []

/-- An answer reaches the master outside the cores. The host port answers a refused read with Completer Abort and drops a
refused write (R468). -/
def masterAnswer (s : State) (t : Txn) : State :=
  match t.dest with
  | .master m =>
    if m = .host ∧ t.status ≠ .ok then
      let s := addF s (modReg oHstAperStatus) 31 0 1
      let r := modReg oHstAperErr
      let s := if getB s r 63 then s else
        setReg s r (BitVec.ofNat 64 (2 ^ 63 + t.write.toNat * 2 ^ 62 + 4 * 2 ^ 48 + t.addr))
      answer s (if t.write then .dropped else .completerAbort) []
    else answer s t.status (if t.write then [] else t.data)
  | .rdma _ l =>
    let link := l % 64
    let s := if t.status = .ok ∧ l < 64 then (if t.write then addF s (linkReg link oSvcRdmaOps) 31 0 1 else addF s (linkReg link oSvcRdmaOps) 63 32 1) else s
    rdmaAnswer s link t.status (if t.write then [] else t.data)
  | _ => s

/-- An answered transaction leaves the tracker; its entry serves a request from the next nanosecond on (R314). -/
def leaveTracker (s : State) (f : Nat) (t : Txn) : State :=
  modField s f fun x =>
    { x with txns := x.txns.filter (·.id ≠ t.id), freedNow := (quartz s, (if x.freedNow.1 = quartz s then x.freedNow.2 else 0) + 1) }

/-- READ_RETURN (R313): the read served first lands at its requester. -/
def execReadReturn (f : FieldId) (s : State) : Out :=
  match nextAnswer s f false with
  | none => .next s
  | some t =>
    let s := leaveTracker s f t
    .next (if t.cls = 0 then landRead (noteLatency s t) t else masterAnswer s t)

/-- WRITE_ACK (R313): the acknowledgment of the write served first reaches its requester. -/
def execWriteAck (f : FieldId) (s : State) : Out :=
  match nextAnswer s f true with
  | none => .next s
  | some t =>
    let s := leaveTracker s f t
    .next (if t.cls = 0 then landAck (noteLatency s t) t else masterAnswer s t)

/-! ## Probes (R329, R335) -/

/-- A write of GW_PROBE_SIZE starts a probe, or is refused. -/
def probeWrite (s : State) (f : Nat) (v : W64) : Status × State :=
  let n := bitsOf v.toNat 34 0
  if n = 0 ∨ n % 64 ≠ 0 ∨ 0x400000000 < getF s (fieldReg f oGwProbeBase) 33 0 + n ∨ (getField s f).probe.isSome then (.configRejected, s)
  else
    let s := setF s (fieldReg f oGwProbeSize) 34 0 n
    (.ok, modField (setReg s (fieldReg f oGwProbeResult) 0#64) f fun x => { x with probe := some (quartz s) })

/-- GW_PROBE_SIZE (R329). -/
def execGwProbeSize (m : Master) (f : FieldId) (v : W64) (s : State) : Out :=
  .next (writeAccess m (fieldReg f oGwProbeSize) s fun s => probeWrite s f v)

/-- Requests that overlap a range of a field, in the tracker, at the input or in a cluster port (R329). -/
def overlapping (s : State) (f lo n : Nat) : Nat :=
  ((getField s f).txns.filter fun t => t.stage != .core &&
    decide (t.addr % 0x400000000 < lo + n) && decide (lo < t.addr % 0x400000000 + t.len)).length

/-- Firmware probes a range and reads the result in the same call (R329). A probe that runs has ended by then. -/
def fwProbe (s : State) (f lo n : Nat) : State :=
  let s := setF (setF s (fieldReg f oGwProbeBase) 33 0 lo) (fieldReg f oGwProbeSize) 34 0 n
  let s := setReg s (fieldReg f oGwProbeResult) (BitVec.ofNat 64 (2 ^ 63 + min (overlapping s f lo n) 0xFFFF))
  modField s f fun x => { x with probe := none }

/-- PROBE_DONE (R329): the probe's count becomes valid. -/
def execProbeDone (f : FieldId) (s : State) : Out :=
  match (getField s f).probe with
  | none => .next s
  | some _ =>
    let n := overlapping s f (getF s (fieldReg f oGwProbeBase) 33 0) (getF s (fieldReg f oGwProbeSize) 34 0)
    let s := setReg s (fieldReg f oGwProbeResult) (BitVec.ofNat 64 (2 ^ 63 + min n 0xFFFF))
    .next (modField s f fun x => { x with probe := none })

/-! ## Accesses by masters (R579) -/

/-- A master's access of stacked memory, admitted by fences and tables, goes to the gateway. -/
def memAccess (s : State) (m : Master) (write : Bool) (a len : Nat) (data : List Byte) : State :=
  match masterTxn s (classOf m) (.master m) write a len data with
  | (.ok, s) => s
  | (st, s) => answer s st []

/-- STACKED_MEMORY_WRITE (R579): a master writes stacked memory. -/
def execStackedMemoryWrite (m : Master) (a : Fin 0x10000000000) (data : List Byte) (s : State) : Out :=
  .next (withAccess m true a data.length s fun s => memAccess s m true a data.length data)

end Sys2Proof.Machine
end

