-- ==== Sys2Proof/Machine/Clock.lean ====
section
/-! DEFINITION. Machine/Clock.lean: references, droops, hushes and forced stops, shadows, Quartz time, starting cores and
the module start pulse (chapter 11, R69, R344 to R363, R583). -/
namespace Sys2Proof.Machine
open Sys2Proof

/-! ## Shadows (R15, R583) -/

/-- The row of the field maps that holds an address, if any. -/
def regDescOf (a : Nat) : Option RegDesc := match decodeAddr a with
  | some (.core _ o) => if 0x18000 ≤ o then findReg .core (o - 0x18000) else none
  | some (.field _ o) => findReg .field o
  | some (.cluster _ o) => findReg .cluster o
  | some (.module o) => findReg .module o
  | some (.link l o) => if l < 40 then findReg .link o else findReg .service o
  | _ => none

/-- Mask of the fields of a register that satisfy `p`. -/
def fieldMask (d : RegDesc) (p : FieldDesc → Bool) : Nat :=
  (d.fields.filter p).foldl (fun m f => m ||| (2 ^ (f.hi + 1 - f.lo) - 1) * 2 ^ f.lo) 0

/-- An access-table window or permission of a field, and its class (R475). -/
def fieldTableClass (a : Nat) : Option Nat := match decodeAddr a with
  | some (.field _ o) =>
    if 0x2000 ≤ o ∧ o < 0x2600 then some ((o - 0x2000) / 0x100 + 1)
    else if 0x2800 ≤ o ∧ o < 0x2E00 then some ((o - 0x2800) / 0x100 + 1)
    else none
  | _ => none

/-- RWH bits of a register; windows of class 1 are RWH, the others RW (R462). -/
def rwhMask (a : Nat) : Nat := match regDescOf a with
  | none => 0
  | some d => match fieldTableClass a with
    | some 1 => fieldMask d fun f => f.acc == .rwh || f.acc == .rw
    | some _ => 0
    | none => fieldMask d fun f => f.acc == .rwh

/-- Puts the bits of a mask from a value into a register. -/
def putMasked (s : State) (a mask : Nat) (v : W64) : State :=
  let m := BitVec.ofNat 64 mask
  setReg s a ((getReg s a &&& ~~~m) ||| (v &&& m))

/-- Is any beat on the field's links, in its crossing FIFOs, send buffers or arrival queues (R280)? -/
def fieldQuiet (s : State) (f : Nat) : Bool :=
  ((smKeys s.cores).filter fun c => fieldOfCore c == f).all fun c =>
    let x := getCore s c
    x.inb.isEmpty && x.sendBuf.isEmpty && x.aq.all (·.isEmpty)

/-- The line whose mask a register holds, if it is one (R258). -/
def maskLine (a : Nat) : Option Nat := match decodeAddr a with
  | some (.cluster _ o) => if oCluGarMask ≤ o ∧ o < oCluGarMask + 64 then some ((o - oCluGarMask) / 8) else none
  | some (.field _ o) => if oGarFmask ≤ o ∧ o < oGarFmask + 0x100 then some ((o - oGarFmask) / 0x20) else none
  | some (.module o) => if oGarLineFields ≤ o ∧ o < oGarLineFields + 64 then some ((o - oGarLineFields) / 8) else none
  | _ => none

/-- A line holds an arrival somewhere. -/
def lineHeld (s : State) (n : Nat) : Bool := (smKeys s.cores).any fun c => getB s (garReg c n) 10

/-- May a shadow take effect at this hush (R258, R280, R583)? -/
def shadowFree (s : State) (a : Nat) : Bool :=
  match maskLine a with
  | some n => !lineHeld s n
  | none => match decodeAddr a with
    | some (.core c o) => if 0x18000 + oCoreSlot ≤ o ∧ o < 0x18000 + oCoreSlot + 512 then fieldQuiet s (fieldOfCore c) else true
    | _ => true

/-- A shadow takes effect. -/
def applyShadow (s : State) (a : Nat) (v : W64) : State :=
  { putMasked s a (rwhMask a) v with shadow := smErase a s.shadow }

/-- The apply phase applies every shadow that may take effect (R355). -/
def applyShadows (s : State) : State :=
  (s.shadow.filter fun p => shadowFree s p.1).foldl (fun s p => applyShadow s p.1 p.2) s

/-! ## Cores in RESET, starting (R69, R222, R363) -/

/-- State of a core as R66 shows it: FENCED over HUSH over what it keeps. -/
def effMode (s : State) (c : Nat) : Nat :=
  if coreFenced s c then 7
  else
    let m := match (getCore s c).mode with
      | .reset => 0 | .run => 1 | .drain => 2 | .held => 3 | .stopped => 4 | .faulted => 5
    if s.clk.kind ≠ 0 then 6 else m

/-- Every core is in RESET (fenced ones aside). -/
def allReset (s : State) : Bool := s.clk.kind == 0 && (smKeys s.cores).all fun c => (getCore s c).mode == .reset || coreFenced s c

/-- A start write: in RESET or STOPPED it arms the core at an entry (R69). -/
def coreCtlWrite (s : State) (c : Nat) (v : W64) : Status × State :=
  if !bitOf v.toNat 0 then (.ok, s)
  else if effMode s c = 0 ∨ effMode s c = 4 then
    (.ok, modCore s c fun x => { x with armed := some (bitsOf v.toNat 11 8) })
  else (.configRejected, addF s (coreReg c oCoreRefusals) 63 32 1)

/-- CORE_CTL (R69): a write of CORE_CTL by a master. -/
def execCoreCtl (m : Master) (c : CoreId) (v : W64) (s : State) : Out :=
  .next (writeAccess m (coreReg c oCoreCtl) s fun s => coreCtlWrite s c v)

/-- CLK_START (R363, R365): arms the module start pulse. -/
def clkStartWrite (s : State) (v : W64) : Status × State :=
  if allReset s ∧ quartz s < v.toNat then (.ok, { s with clk := { s.clk with armed := some v.toNat } }) else (.configRejected, s)

/-- CLK_START (R363): a write of a Quartz time by a master. -/
def execClkStart (m : Master) (v : W64) (s : State) : Out :=
  .next (writeAccess m (modReg oClkStart) s fun s => clkStartWrite s v)

/-- Sets every field's Quartz time. -/
def setFieldTimes (s : State) (t : Nat) : State :=
  (List.range 64).foldl (fun s f => setReg s (fieldReg f oFldQtzTime) (BitVec.ofNat 64 t)) s

/-- Sets the step start time of every field (R362). -/
def setStepStarts (s : State) : State :=
  (List.range 64).foldl (fun s f => modField s f fun x => { x with stepStart := (getReg s (fieldReg f oFldQtzTime)).toNat }) s

/-- An armed core begins (R69). -/
def startCore (s : State) (c : Nat) : State :=
  match (getCore s c).armed with
  | some e => modCore (enterAt s c e 0#20) c fun x => { x with considered := none, issIdx := 0 }
  | none => s

/-- An armed steward begins (R222). -/
def startSteward (s : State) (k : Nat) : State :=
  let x := getClu s k
  match x.armed with
  | some w => setClu s k { x with mode := .run, armed := none, pc := w, freeAt := 0, wait := none, waited := false }
  | none => s

/-- Retrained links carry plan traffic from a resume on (R399). -/
def linksResume (s : State) : State :=
  { s with links := (smKeys s.links).foldl (fun m l => smPut {} l { smGet {} l m with quiet := false } m) s.links }

/-- The cycle count starts again: stretches of an earlier run count no more (R345, R349). -/
def freshStretches (s : State) : State :=
  (smKeys s.fields).foldl (fun s f => modField s f fun x => { x with stretchLast := none, stretchReqs := [], droops := [] }) s

/-- MODULE_START_PULSE (R363): at the armed Quartz time every field begins its cycle 0, and what is armed starts. -/
def execModuleStartPulse (s : State) : Out :=
  match s.clk.armed with
  | some t =>
    if t ≤ quartz s ∧ s.clk.kind = 0 then
      let s := { s with cycle := 0, clocksOn := true, clk := { s.clk with armed := none, started := true } }
      let s := freshStretches (linksResume (setStepStarts (setFieldTimes s t)))
      let s := ((smKeys s.cores).filter fun c => !coreFenced s c).foldl startCore s
      .next (((smKeys s.clus).filter fun k => !cluFenced s k).foldl startSteward s)
    else .next s
  | none => .next s

/-! ## References (R338 to R340) -/

/-- Selected input: 0 A, 1 B. -/
def refSel (s : State) : Nat := getF s (modReg oClkRefStatus) 2 2
/-- Qualified since, by input. -/
def refQual (s : State) (i : Nat) : Option Nat := if i = 0 then s.clk.aQual else s.clk.bQual

/-- Sets an input's qualification. -/
def setQual (s : State) (i : Nat) (q : Option Nat) : State :=
  let s := { s with clk := if i = 0 then { s.clk with aQual := q } else { s.clk with bQual := q } }
  setF s (modReg oClkRefStatus) i i q.isSome.toNat

/-- A switch to an input begins. -/
def refSwitch (s : State) (i : Nat) : State :=
  setF { s with clk := { s.clk with switchTo := some i } } (modReg oClkRefStatus) 4 4 1

/-- CLOCK_HOLDOVER (R339): neither input is qualified. -/
def clockHoldover (s : State) : State :=
  queueCar s (carRec s 5 0 .clockHoldover false false (getReg s (modReg oClkRefStatus)).toNat)

/-- REF_LOSS (R339, R358): a failover cancels a pending switch-back. An input loses qualification; the selected one puts the PLL in holdover and is left if the other is
qualified. -/
def execRefLoss (b : Bool) (s : State) : Out :=
  let i := b.toNat
  if (refQual s i).isNone then .next s
  else
    let s := setQual s i none
    let s := if getF s (modReg oClkRefCtl) 0 0 = i then setF s (modReg oClkRefStatus) 3 3 0 else s
    if refSel s = i ∧ s.clk.switchTo.isNone then
      let s := setF s (modReg oClkRefStatus) 3 3 0
      let s := addF (setF s (modReg oClkRefStatus) 5 5 1) (modReg oClkRefEvents) 15 0 1
      if (refQual s (1 - i)).isSome then .next (addF (refSwitch s (1 - i)) (modReg oClkRefEvents) 63 32 1)
      else .next (clockHoldover s)
    else .next s

/-- REF_QUALIFIED (R338, R339): an input becomes qualified; a PLL in holdover goes to the first that does. -/
def execRefQualified (b : Bool) (s : State) : Out :=
  let i := b.toNat
  if (refQual s i).isSome then .next s
  else
    let s := setQual s i (some s.ns)
    if getB s (modReg oClkRefStatus) 5 && s.clk.switchTo.isNone then
      if refSel s = i then .next (setF s (modReg oClkRefStatus) 5 5 0)
      else .next (addF (refSwitch s i) (modReg oClkRefEvents) 63 32 1)
    else .next s

/-- REF_SWITCH_DONE (R339, R340): a switch completes; if its input has been lost meanwhile the PLL goes back, or stays in
holdover. -/
def execRefSwitchDone (s : State) : Out :=
  match s.clk.switchTo with
  | none => .next s
  | some i =>
    let s := { s with clk := { s.clk with switchTo := none, switchDone := s.ns } }
    let s := setF (setF (setF s (modReg oClkRefStatus) 4 4 0) (modReg oClkRefStatus) 2 2 i) (modReg oClkRefStatus) 5 5 0
    if (refQual s i).isSome then .next s
    else
      let s := addF (setF s (modReg oClkRefStatus) 5 5 1) (modReg oClkRefEvents) 15 0 1
      if (refQual s (1 - i)).isSome then .next (addF (refSwitch s (1 - i)) (modReg oClkRefEvents) 63 32 1)
      else .next (clockHoldover s)

/-! ## Quartz sources (R360) -/

/-- Is a source enabled: 2 Aelto, 1 IEEE 1588, 0 free run? -/
def srcEnabled (s : State) : Nat → Bool
  | 2 => getB s (modReg oQtzCtl) 2 | 1 => getB s (modReg oQtzCtl) 1 | _ => true

/-- Qualified since. -/
def srcQual (s : State) : Nat → Option Nat
  | 2 => s.clk.aeltoQual | 1 => s.clk.ptpQual | _ => some 0

/-- The source in use. -/
def qtzSrc (s : State) : Nat := getF s (modReg oQtzStatus) 2 1

/-- The best enabled and qualified source below a code. -/
def bestBelow (s : State) (i : Nat) : Nat := if i = 2 ∧ srcEnabled s 1 ∧ (srcQual s 1).isSome then 1 else 0

/-- A better source than the one in use, enabled and qualified. -/
def betterSrc (s : State) : Option Nat :=
  [2, 1].find? fun i => decide (qtzSrc s < i) && srcEnabled s i && (srcQual s i).isSome

/-- 2 s in ns. -/
def twoSec : Nat := 2000000000

/-- A better source that has stayed qualified for 2 s (R360). -/
def readySrc (s : State) : Option Nat :=
  [2, 1].find? fun i => decide (qtzSrc s < i) && srcEnabled s i &&
    match srcQual s i with | some t => decide (t + twoSec ≤ s.ns) | none => false

/-- Selects a source. -/
def setSrc (s : State) (i : Nat) : State := setF s (modReg oQtzStatus) 2 1 i

/-- The servo leaves a source that it may not follow for the best one below (R360); a pending move up is kept only while a
source has earned it. -/
def leaveSrc (s : State) : State :=
  let i := qtzSrc s
  let s := if i ≠ 0 ∧ !(srcEnabled s i && (srcQual s i).isSome) then setSrc s (bestBelow s i) else s
  if (readySrc s).isSome then s else setF s (modReg oQtzStatus) 3 3 0

/-- May a source become qualified: source 1 after 10 s within 20 ns (R360)? -/
def srcEarned (s : State) (i : Nat) : Bool :=
  i != 1 || match s.dom.ptpSince with | some t => decide (t + 10000000000 ≤ s.ns) | none => false

/-- IEEE 1588 is enabled and listens for a master, or is disabled (R430). -/
def ptpEnable (s : State) : State :=
  let r := modReg oQtz1588Status
  if getB s (modReg oQtzCtl) 1 then (if getF s r 3 0 = 0 then setF s r 3 0 1 else s)
  else { setF (setF s r 3 0 0) r 23 16 0 with dom := { s.dom with ptpSince := none } }

/-- The qualification of source 2 or 1 changes; a source lost while in use is left at once. -/
def srcChange (s : State) (i : Nat) (q : Bool) : State :=
  let was := (srcQual s i).isSome
  if was = q ∨ i = 0 ∨ (q ∧ !srcEarned s i) then s
  else
    let t := if q then some s.ns else none
    leaveSrc { s with clk := if i = 2 then { s.clk with aeltoQual := t } else { s.clk with ptpQual := t } }

/-- QTZ_SOURCE_SWITCH (R360): a source of the servo gains or loses qualification; losing the one in use moves the servo to
the best qualified source of lower rank. A move up is made by a hush (BACK_PENDING, HUSH_STOP). -/
def execQtzSourceSwitch (src : Fin 3) (qualified : Bool) (s : State) : Out := .next (srcChange s src qualified)

/-- BACK_PENDING (R340, R360): the preferred reference, or a better Quartz source, has stayed qualified for 2 s since the
last switch. -/
def execBackPending (quartzSource : Bool) (s : State) : Out :=
  if quartzSource then
    if (readySrc s).isSome then .next (setF s (modReg oQtzStatus) 3 3 1) else .next s
  else
    let p := getF s (modReg oClkRefCtl) 0 0
    match refQual s p with
    | some t =>
      if refSel s ≠ p ∧ s.clk.switchTo.isNone ∧ max t s.clk.switchDone + twoSec ≤ s.ns then
        .next (setF s (modReg oClkRefStatus) 3 3 1)
      else .next s
    | none => .next s

/-- QTZ_STEER (R359): the servo steers the next edge, which advances the counter by 2 or by 0; at most once in 4,096 ns. -/
def execQtzSteer (double : Bool) (s : State) : Out :=
  if s.clk.steer.isSome || (match s.clk.lastSteer with | some t => decide (s.ns < t + 4096) | none => false) then .next s
  else
    let s := { s with clk := { s.clk with lastSteer := some s.ns, steer := some double } }
    if double then .next (addF s (modReg oQtzSteer) 31 0 1) else .next (addF s (modReg oQtzSteer) 63 32 1)

/-- A write of QTZ_SET: only while every core is in RESET; loads the counter and every field's time (R359). -/
def qtzSetWrite (s : State) (v : W64) : Status × State :=
  if allReset s then (.ok, setFieldTimes (setReg s (modReg oQtzTime) v) v.toNat) else (.configRejected, s)

/-- QTZ_SET (R359). -/
def execQtzSet (m : Master) (v : W64) (s : State) : Out :=
  .next (writeAccess m (modReg oQtzSet) s fun s => qtzSetWrite s v)

/-! ## Clock checks and droops (R343 to R349) -/

/-- The neighbour that a field takes its clock from: one step toward fx = 3 or 4 in its row, else one step toward fy = 3 or
4; the synthesizer drives the four centre fields (R341). -/
def clockParent (f : Nat) : Option Nat :=
  if f % 8 < 3 then some (f + 1)
  else if 4 < f % 8 then some (f - 1)
  else if f / 8 < 3 then some (f + 8)
  else if 4 < f / 8 then some (f - 8)
  else none

/-- The fields through which a field's clock comes, nearest first (R341): at most six. -/
def clockPath : Nat → Nat → List Nat
  | 0, _ => []
  | n + 1, f => match clockParent f with
    | some g => g :: clockPath n g
    | none => []

/-- A field and the fields that take their clock through it, in the order in which the failure reaches them (R343). -/
def clockBelow (f : Nat) : List Nat :=
  f :: ((List.range 7).map fun d => (List.range 64).filter fun g => (clockPath 6 g)[d]? == some f).flatten

/-- CLOCK_CHECK_FAIL (R343): a field's received clock fails its check, and so do the fields that take their clock through it;
each is fenced with cause 0x04. -/
def execClockCheckFail (f : FieldId) (s : State) : Out :=
  .next ((clockBelow f).foldl (fun s g => fenceField (setF s (fieldReg g oFldClkStatus) 15 15 0) g 4) s)

/-- A field asks for a stretch in a cycle (R344, R347). -/
def askStretch (s : State) (f at_ : Nat) (droop : Bool) : State :=
  modField s f fun x => if x.stretchReqs.contains (at_, droop) then x else { x with stretchReqs := x.stretchReqs ++ [(at_, droop)] }

/-- First cycle in which a field may stretch (R345). -/
def stretchFrom (x : FieldSt) : Nat := match x.stretchLast with | some t => t + 8 | none => 0

/-- The requests that a stretch in cycle `cy` serves. -/
def stretchDue (x : FieldSt) (cy : Nat) : List (Nat × Bool) := x.stretchReqs.filter fun r => decide (r.1 ≤ cy)

/-- The requests that remain. -/
def stretchLeft (x : FieldSt) (cy : Nat) : List (Nat × Bool) := x.stretchReqs.filter fun r => decide (cy < r.1)

/-- DROOP_DETECT (R344, R345): an enabled detector asks for a stretch of its field three cycles on; stretches come at
least 8 cycles apart, and requests that have fallen due merge into one. -/
def execDroopDetect (f : FieldId) (clu : Fin 256) (s : State) : Out :=
  if s.clocksOn && !fieldFenced s f && !cluFenced s (256 * f + clu) && getB s (fieldReg f (oFldDroopEn + 8 * (clu.val / 64))) (clu.val % 64) then
    .next (askStretch s f (s.cycle + 3) true)
  else .next s

/-- Fields across the edges of a field. -/
def neighbourFields (f : Nat) : List Nat := (List.range 4).filterMap (fieldAcross f)

/-- A displacement of 4 half cycles on an edge raises the governor requests of both its fields (R349). -/
def govEdges (s : State) (f : Nat) : State :=
  (neighbourFields f).foldl (fun s g =>
    if 4 ≤ dispOf s f g then setF (setF s (fieldReg f oFldClkStatus) 16 16 1) (fieldReg g oFldClkStatus) 16 16 1 else s) s

/-- A stretch is made: it serves every request that has fallen due; lag, statistics, governor requests (R344 to R346, R349). -/
def makeStretch (s : State) (f : Nat) : State :=
  let x := getField s f
  let d := (stretchDue x s.cycle).any (·.2)
  let ds := if d then (x.droops ++ [s.cycle]).filter fun t => decide (s.cycle < t + 65536) else x.droops
  let s := setField s f { x with stretchLast := some s.cycle, stretchReqs := stretchLeft x s.cycle, droops := ds }
  let s := addLag s f
  let s := if d then addF s (fieldReg f oFldStretchStats) 63 32 1 else addF s (fieldReg f oFldStretchStats) 31 16 1
  let s := if getF s (modReg oClkGovCtl) 19 8 < ds.length then setF s (fieldReg f oFldClkStatus) 16 16 1 else s
  govEdges s f

/-- What the stretch governor of a field does in a cycle: balancing requests, then a stretch that is due. -/
def stretchCycle (s : State) (f : Nat) : State :=
  let bal := getF s (modReg oClkGovCtl) 3 0
  let s := if (neighbourFields f).any fun g => decide (lagOf s f + bal ≤ lagOf s g) then
      (if (stretchDue (getField s f) s.cycle).isEmpty then askStretch s f s.cycle false else s) else s
  let x := getField s f
  if !(stretchDue x s.cycle).isEmpty && decide (stretchFrom x ≤ s.cycle) then makeStretch s f else s

/-- Phase reset (R346): every lag becomes 0. -/
def phaseReset (s : State) : State :=
  (List.range 64).foldl (fun s f =>
    let s := if lagOf s f = 0 then s else modField s f fun x => { x with lag := 0 }
    setF s (fieldReg f oFldClkStatus) 7 0 0) s

/-- Equalising stretches before a realign (R348): each field stretches up to the largest lag. -/
def equalise (s : State) : State :=
  let top := ((List.range 64).map (lagOf s)).foldl max 0
  (List.range 64).foldl (fun s f => addF s (fieldReg f oFldStretchStats) 15 0 (top - lagOf s f)) s

/-- The correction of a field's time (R361, R362): to the module counter, never backward. In local mode it is counted, and a
field ahead holds its time until the counter reaches it; in direct mode the field follows the counter anyway. -/
def correctField (s : State) (f : Nat) : State :=
  let now := quartz s
  let r := fieldReg f oFldQtzTime
  let t := (getReg s r).toNat
  let c := fieldReg f oFldQtzCorr
  if fieldFenced s f then s
  else if getB s (modReg oQtzCtl) 9 then (if t ≤ now then setReg s r (BitVec.ofNat 64 now) else s)
  else
    let s := addF (setF s c 47 32 (patternOf 16 ((now : Int) - t))) c 31 0 1
    let s := modField s f fun x => { x with qHold := decide (now < t) }
    if t ≤ now then setReg s r (BitVec.ofNat 64 now) else addF s c 63 48 1

/-- Every field's time is corrected. -/
def correctFields (s : State) : State := (List.range 64).foldl correctField s

/-! ## Hushes (R351 to R358) -/

/-- Ceiling of the grid (R5, R35). -/
def ceilingN (s : State) : Nat := if Config.gradeTwo || s.clk.low then 15 else 18

/-- The frequency that a hush selects (R349, R358): target clamped to the ceiling, lowered by a governor request. -/
def selectFreq (s : State) : State :=
  let r := modReg oClkFreqStatus
  let fixed := getB s (modReg oClkFreqCtl) 8
  let want := getF s (modReg oClkFreqCtl) 4 0
  let n := min want (ceilingN s)
  let gov := s.clk.govReq || (List.range 64).any fun f => getB s (fieldReg f oFldClkStatus) 16
  let down := getF s (modReg oClkGovCtl) 27 24
  let (mode, n', mhz) :=
    if fixed then (if gov || (getB s r 18 && !s.clk.freqNew) then (0, 10, 880) else (1, 0, 900))
    else let m := if gov then n - down else n
      (0, m, 480 + 40 * m)
  let s := setF (setF (setF s r 47 32 mhz) r 16 16 mode) r 4 0 n'
  let s := setF (setF s r 18 18 (gov || (fixed && mode == 0)).toNat) r 17 17 (!fixed && decide (ceilingN s < want)).toNat
  let s := setF { s with clk := { s.clk with freqNew := false, govReq := false } } r 12 8 (ceilingN s)
  (List.range 64).foldl (fun s f => setF s (fieldReg f oFldClkStatus) 16 16 0) s

/-- Pending switches of the reference and of the Quartz source are made (R340, R360): to the input that is preferred now, if it
is not the one selected, and to the best source that has stayed qualified for 2 s. -/
def hushSwitches (s : State) : State :=
  let p := getF s (modReg oClkRefCtl) 0 0
  let s := if getB s (modReg oClkRefStatus) 3 then
      let s := setF s (modReg oClkRefStatus) 3 3 0
      if refSel s = p ∨ s.clk.switchTo.isSome then s else addF (refSwitch s p) (modReg oClkRefEvents) 31 16 1
    else s
  if getB s (modReg oQtzStatus) 3 then
    match readySrc s with
    | some i => setF (setSrc s i) (modReg oQtzStatus) 3 3 0
    | none => setF s (modReg oQtzStatus) 3 3 0
  else s

/-- FLD_SLACK is copied and cleared (R270). -/
def slackHush (s : State) : State :=
  (List.range 64).foldl (fun s f =>
    setReg (setReg s (fieldReg f oFldSlackLast) (getReg s (fieldReg f oFldSlack))) (fieldReg f oFldSlack) 0#64) s

/-- Grid point in effect. -/
def freqN (s : State) : Nat := getF s (modReg oClkFreqStatus) 4 0

/-- Every field stops and the apply phase runs (R353 to R355); the synthesizer locks anew where the frequency changes (R356,
DESIGN CHOICE, log 70). -/
def hushStop (s : State) (kind : Nat) : State :=
  let s := { s with clocksOn := false, clk := { s.clk with kind := kind, since := s.ns } }
  let s := setF (setF s (modReg oClkHushStatus) 34 34 1) (modReg oClkHushStatus) 33 32 kind
  let n := freqN s
  let s := hushSwitches (selectFreq (slackHush (applyShadows (dropStretches s))))
  { s with clk := { s.clk with unready := s.clk.unready || freqN s != n } }

/-- The members of a line are every core of every field of the loaded program's target (R352). -/
def coversTarget (s : State) (n : Nat) : Bool :=
  match s.boot.prog with
  | some p => p.fields.all fun f => getB s (modReg (oGarLineFields + 8 * n)) f && (List.range 256).all fun k =>
      getB s (fieldReg f (oGarFmask + 0x20 * n + 8 * (k / 64))) (k % 64) && getReg s (cluReg (256 * f + k) (oCluGarMask + 8 * n)) == ~~~(0#64)
  | none => true

/-- The next word of a member waits on the line's release counter (R352). -/
def nextWaits (s : State) (n c : Nat) : Bool :=
  let w := curWord s c
  wWaitEn w && wWaitCtr w == getF s (garReg c n) 4 0

/-- A line's barrier is a hush point and is full (R352): the realign, or a module-scope barrier of every core of the target
whose members arrived with hp and wait on its release counter next. -/
def atHushPoint (s : State) (n : Nat) : Bool :=
  lineFull s n && (garMembers s n).all (fun c => (getCore s c).hpWord) &&
    (n == realignLine s || (garScope s n == 3 && coversTarget s n && (garMembers s n).all (nextWaits s n)))

/-- In the cycle in which the last member arrives at a hush point, req is sampled and, where it is 1, cleared (R353). -/
def sampleHush (s : State) : State :=
  if !getB s (modReg oClkHushCtl) 0 then s
  else match (List.range 8).filter fun n => (getGar s n).last == s.cycle && !(getGar s n).hush && atHushPoint s n with
    | [] => s
    | ns => setF (ns.foldl (fun s n => setGar s n { getGar s n with hush := true }) s) (modReg oClkHushCtl) 0 0 0

/-- A hush is due on a line: sampled at the last arrival, and the hush cycle has come (R353). -/
def hushPoint (s : State) (n : Nat) : Bool := (getGar s n).hush && lineFull s n && decide (releaseCycle s n ≤ s.cycle)

/-- IDLE_HUSH's condition (R351): no core runs or drains, no steward runs. -/
def idleOk (s : State) : Bool :=
  ((smKeys s.cores).all fun c => coreFenced s c || ((getCore s c).mode != .run && (getCore s c).mode != .drain)) &&
    (smKeys s.clus).all fun k => cluFenced s k || (getClu s k).mode != .run

/-- The statistics of a hush that has ended (R357, R364). -/
def countHush (s : State) : State :=
  let n := s.ns - s.clk.since
  let s := setF s (modReg oClkHushStatus) 31 0 n
  let s := addF s (modReg oClkHushStats) 63 32 1
  let s := if 4000 < n then addF s (modReg oClkHushStats) 31 16 1 else s
  if getF s (modReg oClkHushStats) 15 0 < n then setF s (modReg oClkHushStats) 15 0 (min n 0xFFFF) else s

/-- The restart wave (R355, R356): clocks, phase reset, field times, statistics. -/
def restartClocks (s : State) : State :=
  let kind := s.clk.kind
  let s := { s with clocksOn := s.clk.started, clk := { s.clk with kind := 0, causes := [] } }
  let s := setF (setF s (modReg oClkHushStatus) 34 34 0) (modReg oClkHushStatus) 33 32 0
  let s := if kind = 3 then s else countHush s
  let s := correctFields (phaseReset s)
  let s := (List.range 64).foldl (fun s f => if (getField s f).stretchLast.isSome then modField s f fun x => { x with stretchLast := none } else s) s
  let s := ((smKeys s.cores).filter fun c => (getCore s c).hpHold).foldl (fun s c => modCore s c fun x => { x with hpHold := false }) s
  (List.range 64).foldl (fun s f => traceEv s (coreAt f 0 0) (coreAt f 0 0) 0x0D none (kind + getF s (modReg oClkFreqStatus) 4 0 * 2 ^ 8)) s

/-- A hush may end: the synthesizer is locked, every rail is good and no reference switch is in progress (R356). -/
def mayRestart (s : State) : Bool := !s.clk.unready && (s.clk.kind == 1 || s.clk.kind == 2) && s.clk.switchTo.isNone

/-- The end of a hush: with no stop held the module restarts; where a forced stop's cause has come meanwhile, it stays
stopped (R356, R358). -/
def endHush (s : State) : State :=
  if s.clk.causes.isEmpty then restartClocks s
  else
    let s := countHush s
    setF { s with clk := { s.clk with kind := 3 } } (modReg oClkHushStatus) 33 32 3

/-- RAIL_TIMEOUT (R357): rail-good has not returned 1 ms into a hush: the module stays stopped until it has. -/
def execRailTimeout (s : State) : Out :=
  if (s.clk.kind = 1 ∨ s.clk.kind = 2) ∧ s.clk.since + 1000000 ≤ s.ns ∧ !getB s (modReg oClkHushStatus) 35 then
    let s := setF { s with clk := { s.clk with unready := true } } (modReg oClkHushStatus) 35 35 1
    .next (queueCar s (carRec s 5 0 .railTimeout true false (getReg s (modReg oClkHushStatus)).toNat))
  else .next s

/-- The cores that an abort faults: not in RESET, STOPPED or FENCED (R350, R536). -/
def abortCores (s : State) (n : FaultName) : State :=
  ((smKeys s.cores).filter fun c => !coreFenced s c).foldl (fun s c =>
    let x := getCore s c
    if x.mode = .reset ∨ x.mode = .stopped then s
    else coreFault s c n (if x.mode = .run then wTag (curWord s c) else x.dpTag) 0 0) s

/-- The ramp of R491 begins: the module restarts without issuing, and no field cycle passes. -/
def beginRamp (s : State) : State :=
  setF { s with pwr := { s.pwr with ramp := some s.ns } } (modReg oPwrStatus) 2 0 3

/-- An abort ends a stop that SLACK_EXHAUSTED or SLIP_MISSED caused, by a ramp; in any other state it does nothing. The
cores fault as the clock restarts (`RAMP_RELEASE`). -/
def hushAbort (s : State) : State :=
  let k := s.clk
  if k.kind = 3 ∧ k.causes.all (fun c => c = .slack ∨ c = .slip) ∧ k.causes ≠ [] then
    beginRamp { s with clk := { k with causes := [], aborting := some (if k.causes.contains .slack then .slack else .slip) } }
  else s

/-- HUSH_ABORT (R350): firmware writes CLK_HUSH_CTL.abort. -/
def execHushAbort (m : Master) (s : State) : Out :=
  .next (writeAccess m (modReg oClkHushCtl) s fun s => (.ok, (hushAbort s)))

/-- The idle hush that a write of CLK_HUSH_CTL.idle takes, or its refusal (R351). -/
def idleHush (s : State) : Status × State :=
  if s.clk.kind = 0 ∧ idleOk s then (.ok, hushStop s 2) else (.configRejected, s)

/-- IDLE_HUSH (R351). -/
def execIdleHush (m : Master) (s : State) : Out :=
  .next (writeAccess m (modReg oClkHushCtl) s fun s => idleHush s)

end Sys2Proof.Machine
end

