-- ==== Sys2Proof/Machine/PowerCtl.lean ====
section
/-! DEFINITION. Machine/PowerCtl.lean: the stored energy, the cap controller and its learning, the hush stop (R353, R493 to
R496, R501, R502). -/
namespace Sys2Proof.Machine
open Sys2Proof

/-- The runtime firmware runs, and no takeover of a live update is on (R528, R532). -/
def runtimeOn (s : State) : Bool :=
  s.boot.power && getF s (modReg oCarBootStatus) 2 0 == 5 && getF s (modReg oCarUpdateStatus) 2 0 != 3

/-- CAR_UPDATE_STATUS.state. -/
def updState (s : State) : Nat := getF s (modReg oCarUpdateStatus) 2 0
/-- Sets it. -/
def setUpd (s : State) (v : Nat) : State := setF s (modReg oCarUpdateStatus) 2 0 v

/-- The module is in fixed-frequency mode (R7, R364). -/
def fixedMode (s : State) : Bool := getB s (modReg oClkFreqStatus) 16 || getB s (modReg oClkFreqCtl) 8

/-! ## The hold-up store (R501, R502) -/

/-- C_lo in 1/100 µF. -/
def cLow (s : State) : Nat :=
  let c := getF s (modReg oPwrHoldupCal) 31 16
  if c = 0 then 3900000 else 98 * c
/-- C_hi in 1/100 µF. -/
def cHigh (s : State) : Nat :=
  let c := getF s (modReg oPwrHoldupCal) 31 16
  if c = 0 then 4100000 else 102 * c
/-- Energy in µJ at a voltage in 10 mV. -/
def capEnergy (c v : Nat) : Nat := c * v * v / 2000000
/-- Store voltage, 10 mV. -/
def storeV (s : State) : Nat := getF s (modReg oPwrHoldup) 15 0
/-- Lower estimate, µJ. -/
def eLow (s : State) : Nat := min s.pwr.gauge.toNat (capEnergy (cLow s) (storeV s))
/-- Higher estimate, µJ. -/
def eHigh (s : State) : Nat := max s.pwr.gauge.toNat (capEnergy (cHigh s) (storeV s))
/-- Usable energy, µJ: above 20 V. -/
def usable (s : State) : Nat := eLow s - capEnergy (cLow s) 2000
/-- Ride-through reserve, µJ. -/
def reserveE (s : State) : Nat := 300000 * getF s (modReg oPwrBraceCtl) 7 0
/-- Pacing threshold, µJ. -/
def paceE (s : State) : Nat := reserveE s + 1000000

/-- Highest voltage up to 54.0 V, in 10 mV, at which a capacitance in 1/100 µF holds at most 59.5 J: its bits from the top. -/
def chargeVolt (c : Nat) : Nat :=
  min 5400 ((List.range 13).foldl (fun v i => if capEnergy c (v + 2 ^ (12 - i)) ≤ 59500000 then v + 2 ^ (12 - i) else v) 0)

/-- The charge target of the internal bus, 10 mV (R481): the lower of 54.0 V and the voltage where the higher estimate reaches
59.5 J; where the gauge alone has reached it, the voltage as it stands (log 125). -/
def chargeTarget (s : State) : Nat :=
  if 59500000 ≤ s.pwr.gauge.toNat then min (chargeVolt (cHigh s)) (storeV s) else chargeVolt (cHigh s)

/-- A store voltage is measured: above 54.7 V the comparator opens the charge path; the input stage charges the store while the
bus is below its charge target, unless a dip has disconnected it (R481 to R483). -/
def storeMeasured (s : State) (v : Nat) : State :=
  let s := setF s (modReg oPwrHoldup) 15 0 v
  let path := decide (5470 < v)
  let off := s.pwr.brace.isSome && !s.pwr.dipOver
  { s with pwr := { s.pwr with pathOpen := path, charging := !off && !path && decide (v < chargeTarget s) } }

/-- Shows the estimates in PWR_HOLDUP, in mJ. -/
def showHoldup (s : State) : State :=
  let r := modReg oPwrHoldup
  setF (setF (setF s r 63 48 (min 0xFFFF (eHigh s / 1000))) r 47 32 (min 0xFFFF (eLow s / 1000))) r 31 16
    (min 0xFFFF (s.pwr.gauge.toNat / 1000))

/-- Sets PWR_STATUS.state. -/
def pwrState (s : State) (v : Nat) : State := setF s (modReg oPwrStatus) 2 0 v

/-! ## The cap controller (R493 to R495) -/

/-- ε[p][n] as learned, in nJ per cycle; 0 where not learned. -/
def epsOf (s : State) (p n : Nat) : Nat := smGet 0 (32 * p + n) s.pwr.eps

/-- Grid points by their distance from n, the lower one first. -/
def nearPoints (n : Nat) : List Nat := ((List.range 19).flatMap fun d => [n - d, n + d]).filter (· ≤ 18)

/-- ε[p][n], learned or estimated from the nearest learned point. -/
def estNj (s : State) (p n : Nat) : Option Nat :=
  match (nearPoints n).find? fun q => epsOf s p q != 0 with
  | some q => some (if q = n then epsOf s p n else epsOf s p q * ((24 + 2 * n) * (24 + 2 * n)) / ((24 + 2 * q) * (24 + 2 * q)))
  | none => none

/-- The choice of R495 among grid points n and below. -/
def pickN (s : State) (p : Nat) : Nat → Nat
  | 0 => 0
  | n + 1 =>
    let k := n + 1
    let mhz := 480 + 40 * k
    let w := (estNj s p k).getD 0 * mhz / 1000
    let us := smGet 0 p s.pwr.cyc / mhz
    let lend := if us = 0 then 0 else s.pwr.bank * 1000 / us
    if w ≤ getF s (modReg oPwrCapCtl) 14 0 + lend then k else pickN s p n

/-- Highest grid point that the controller may choose. -/
def topN (s : State) : Nat := ceilingN s - s.pwr.steps

/-- The choice for the interval that will carry phase p; a phase with no learned point runs at the frequency in effect,
but not above n = 12 (R494). -/
def chooseN (s : State) (p : Option Nat) : Nat :=
  match p with
  | some p => if (estNj s p 12).isSome then pickN s p (topN s) else min (min (freqN s) 12) (topN s)
  | none => min (min (freqN s) 12) (topN s)

/-- Firmware keeps CLK_FREQ_CTL's shadow at its choice, and asks for a hush when that differs from the frequency in
effect (R495). A change of mode that waits in the shadow goes on waiting (R7). -/
def steerFreq (s : State) (n : Nat) : State :=
  let a := modReg oClkFreqCtl
  let old := (smFind a s.shadow).getD (getReg s a)
  let s := { s with shadow := smPut (getReg s a) a (BitVec.ofNat 64 (setBitsOf old.toNat 4 0 n)) s.shadow
                    clk := { s.clk with freqNew := true } }
  if n = freqN s then s else setF s (modReg oClkHushCtl) 0 0 1

/-- A learned value moves an eighth of the way to a measurement; the first one is taken as it is. -/
def learn (old new : Nat) : Nat := if old = 0 then new else (old + ((new : Int) - old) / 8).toNat

/-- Phase mark of the word at a hush point. -/
def hushPhase (s : State) (n : Nat) : Nat := match garMembers s n with
  | c :: _ => getF s (coreReg c oCorePhase) 7 0
  | [] => 0

/-- The interval that ends, at grid point n: ε, c and the bank (R494, R495). -/
def endInterval (s : State) (n p e0 c0 t0 : Nat) : State :=
  let mj := (getReg s (modReg oPwrEnergyIn)).toNat - e0
  let cy := s.cycle - c0
  let cap := getF s (modReg oPwrCapCtl) 14 0
  let bank := (s.pwr.bank : Int) + cap * (s.ns - t0) / 1000000 - mj
  let pw := { s.pwr with bank := min bank.toNat (getF s (modReg oPwrCapCtl) 47 32) }
  let k := 32 * p + n
  if cy = 0 then { s with pwr := pw }
  else { s with pwr := { pw with eps := smPut 0 k (learn (smGet 0 k pw.eps) (mj * 1000000 / cy)) pw.eps
                                 cyc := smPut 0 p (learn (smGet 0 p pw.cyc) cy) pw.cyc } }

/-- What the cap controller does at a hush point (R494, R495): it learns the interval that ends, and chooses for the one
after the interval that begins. In fixed-frequency mode it does nothing (R496). `g` is the grid point of the interval that
ends. A hush point at which the module has stopped is passed once. -/
def passHushPoint (s : State) (n g : Nat) : State :=
  if !atHushPoint s n || !runtimeOn s || fixedMode s || (match s.pwr.ival with | some (_, _, c, _) => c == s.cycle | none => false) then s
  else
    let p := hushPhase s n
    let s := match s.pwr.ival with
      | some (q, e0, c0, t0) =>
        let s := endInterval s g q e0 c0 t0
        { s with pwr := { s.pwr with follow := smPut 0 q (p + 1) s.pwr.follow } }
      | none => s
    let s := { s with pwr := { s.pwr with ival := some (p, (getReg s (modReg oPwrEnergyIn)).toNat, s.cycle, s.ns) } }
    let f := smGet 0 p s.pwr.follow
    steerFreq s (chooseN s (if f = 0 then none else some (f - 1)))

/-- The thermal loop lowers top by one grid step at each hush while a field is at or above throttle_c (R504). -/
def throttleHush (s : State) : State :=
  if runtimeOn s && getB s (modReg oPwrThermStatus) 0 && !fixedMode s then
    { s with pwr := { s.pwr with steps := min 18 (s.pwr.steps + 1) } }
  else s

end Sys2Proof.Machine
end

