-- ==== Sys2Proof/Machine/Links.lean ====
section
/-! DEFINITION. Machine/Links.lean: tensor links: training, frames, cells, receipts, replays, slips, lanes and link failure
(chapter 12). Link time is counted in units of 1/6400 ns, in which positions (1/100 ns) and delays (1/256 ns) are whole. -/
namespace Sys2Proof.Machine
open Sys2Proof

/-! ## Ports and registers (R368, R369, R400) -/

/-- State of a link channel. -/
def getLch (x : LinkSt) (q : Nat) : LchSt := smGet {} q x.chans
/-- Changes a link channel's state. -/
def modLch (s : State) (l q : Nat) (g : LchSt → LchSt) : State :=
  modLink s l fun x => { x with chans := smPut {} q (g (getLch x q)) x.chans }

/-- Field and offset e of each tensor link, by side (R368, R369): for links 0 to 9 of a side. -/
def sidePorts : List (Nat × Nat) := [(1, 0), (1, 64), (2, 0), (2, 64), (3, 32), (4, 32), (5, 0), (5, 64), (6, 0), (6, 64)]

/-- Port core j of a link (R369). -/
def portCore (l j : Nat) : Nat :=
  let p := sidePorts.getD (l % 10) (0, 0)
  match l / 10 with
  | 0 => coreAt p.1 (p.2 + j) 0
  | 1 => coreAt (8 * p.1 + 7) 127 (p.2 + j)
  | 2 =>
    -- links 20 to 29 run from field (6, 7) to field (1, 7)
    coreAt (56 + (7 - p.1)) (p.2 + j) 127
  | _ => coreAt (8 * (7 - p.1)) 0 (p.2 + j)

/-- Field of a link's port. -/
def linkField (l : Nat) : Nat := fieldOfCore (portCore l 0)

/-- Direction of the arrival queue that a link fills: its exterior edge. -/
def portDir (l : Nat) : Nat := l / 10

/-- State codes of LNK_STATUS. -/
def lnkState (s : State) (l : Nat) : Nat := getF s (linkReg l oLnkStatus) 2 0
/-- Sets the state of a link. -/
def setLnkState (s : State) (l v : Nat) : State := setF s (linkReg l oLnkStatus) 2 0 v

/-- The peer of spare link k is the module that a link's LNK_PEER_EXPECT names: domain and coordinates (R400). -/
def peerNamed (s : State) (k l : Nat) : Bool :=
  let i := linkReg k oLnkPeerInfo
  let e := linkReg l oLnkPeerExpect
  getB s i 63 && getF s i 47 32 == getF s e 47 32 && getF s i 29 15 == getF s e 29 15

/-- The engine that serves a link: a spare that stands in for it, or its own (R400). -/
def engineOf (s : State) (l : Nat) : Nat :=
  match (List.range 4).find? fun i =>
      getB s (modReg oLnkSpareSub) (16 * i + 15) && getF s (modReg oLnkSpareSub) (16 * i + 5) (16 * i) == l && lnkState s (36 + i) == 3 &&
        peerNamed s (36 + i) l with
  | some i => 36 + i
  | none => l

/-- Does a link carry plan traffic: UP, and not merely retrained (R399)? A module that missed a slip sends empty cells
(R536). -/
def carries (s : State) (l : Nat) : Bool :=
  let e := engineOf s l
  lnkState s e == 3 && !(getLink s e).quiet && !s.clk.causes.contains .slip

/-- LNK_CHANq. -/
def lchReg (l q : Nat) : Nat := linkReg l (oLnkChan + 8 * q)

/-- Generation of the module, as its core 0 has it. -/
def modGen (s : State) : Nat := getF s (coreReg 0 oCoreCtrStatus) 19 16

/-! ## Frame time (R378) -/

/-- Slips applied at or before the start of frame n. -/
def slipsAt (s : State) (n : Nat) : Nat :=
  getF s (modReg oLnkSlipStatus) 63 32 - (s.dom.slipped.filter fun e => decide (n < e)).length

/-- T_n in ns. -/
def frameTime (s : State) (n : Nat) : Nat := (getReg s (modReg oLnkFrameBase)).toNat + 2000 * (n + slipsAt s n)

/-- Does a link run Aelto 1.2 (R377)? -/
def isV12 (s : State) (l : Nat) : Bool := getF s (linkReg l oLnkStatus) 15 8 == 0x12

/-- Start of a position in 1/6400 ns. A 1.2 link has a quarter of the rate. -/
def posTime (s : State) (l n p : Nat) : Nat := 6400 * frameTime s n + 20480 + (if isV12 s l then 26624 else 6656) * p

/-- A time in 1/6400 ns has come: it lies in the current nanosecond or before. -/
def reached (s : State) (t : Nat) : Bool := decide (t / 6400 ≤ quartz s)

/-- Release time of a cell first sent in a position (R386): t_pos + D + G. -/
def relTime (s : State) (l n p : Nat) : Nat :=
  posTime s l n p + 25 * getF s (linkReg (engineOf s l) oLnkDelay) 31 0 + 6400 * getF s (linkReg l oLnkGuard) 15 0

/-- Number of a position, counted from frame 0. -/
def posNo (n p : Nat) : Nat := 1920 * n + p + 1

/-- The current frame. -/
def curFrame (s : State) : Nat := (getReg s (modReg oLnkFrame)).toNat

/-- The frame nearest the current one with the low bits given. -/
def nearFrame (s : State) (bits low : Nat) : Nat :=
  let m := 2 ^ bits
  let n := curFrame s
  let base := (n + m / 2) / m * m + low
  if n + m / 2 < base then base - m else base

/-! ## Receipts (R385) -/

/-- A row enters a port core's exterior arrival queue as a message of its own or as a part of one. -/
def portRow (s : State) (l core chan gen lch seq : Nat) (first last : Bool) (data : List Byte) : State :=
  let b : MBeat := { first := first, last := last, gen := gen, dstChan := chan, dst := core, src := 0xFFFFF
                     tag := BitVec.ofNat 20 (lch * 2 ^ 14 + seq % 2 ^ 14), data := data, ok := true, sendChan := 64, hops := 0 }
  modCore s core fun x => { x with aq := x.aq.set (portDir l) (x.aq.getD (portDir l) [] ++ [⟨b, s.cycle⟩]) }

/-- The receipt of a cell lands at its egress port core. -/
def receipt (s : State) (l core chan lch seq : Nat) (lost : Bool) : State :=
  let row := natLe 8 (quartz s) ++ natLe 2 seq ++ [BitVec.ofNat 8 lost.toNat, BitVec.ofNat 8 l, BitVec.ofNat 8 lch] ++ List.replicate 19 0
  if coreFenced s core then s
  else portRow s l core chan (getF s (coreReg core oCoreCtrStatus) 19 16) lch seq true true row

/-- The receipt of a sent cell, where it has one. -/
def cellReceipt (s : State) (l : Nat) (k : SentCell) (lost : Bool) : State :=
  match k.core with
  | some (c, ch) => receipt s l c ch k.lch k.seq lost
  | none => s

/-! ## Failure (R397, R398) -/

/-- LNK_DOWN_INFO takes the first record (R397, R405). -/
def downRecord (s : State) (l cause : Nat) : State :=
  if getB s (linkReg l oLnkDownInfo) 63 then s
  else setReg s (linkReg l oLnkDownInfo) (BitVec.ofNat 64 (2 ^ 63 + cause * 2 ^ 56 + quartz s % 2 ^ 48))

/-- A link in training or in use fails for a cause of R397: DOWN, its record, and what LINK_DOWN completes. -/
def linkFails (s : State) (l cause : Nat) : State :=
  if lnkState s l = 0 ∨ lnkState s l = 4 then s
  else
    let was := lnkState s l
    let s := addF (setLnkState s l 4) (linkReg l oLnkEvents) 63 48 1
    let s := setF (setF s (linkReg l oLnkStatus) 18 18 0) (linkReg l oLnkStatus) 23 23 0
    let s := downRecord s l cause
    let s := modLink s l fun x => { x with step := 0, downAt := s.ns, spares := [], waiting := []
                                           failing := if was = 3 then some cause else x.failing }
    let s := if getF s (modReg oLnkQtzSrc) 5 0 = l ∧ getB s (modReg oLnkQtzSrc) 6 then srcChange s 2 false else s
    signalHost s 9

/-- The readied cells of an egress channel: its counter's value less the cells sent, if it is 1 to 0x7FFF (R384). -/
def readyCells (s : State) (l q : Nat) : Nat :=
  let r := lchReg l q
  if !getB s r 63 || getB s r 62 then 0
  else
    let d := ((ctrVal s (portCore l (getF s r 61 56)) (getF s r 45 41)).toNat + 65536 - (getLch (getLink s l) q).sent % 65536) % 65536
    if d ≤ 0x7FFF then d else 0

/-- The next readied cell of a channel is completed with a LINK_LOST receipt. -/
def loseReady (s : State) (l q : Nat) : State :=
  let r := lchReg l q
  let y := getLch (getLink s l) q
  let s := receipt s l (portCore l (getF s r 61 56)) (getF s r 40 35) q y.seq true
  modLch s l q fun y => { y with sent := (y.sent + 1) % 65536, seq := (y.seq + 1) % 65536 }

/-- The oldest prefetched cell of a link is completed with a LINK_LOST receipt. -/
def losePre (s : State) (l : Nat) (k : PreCell) : State :=
  let s := receipt s l k.core k.rcpt k.lch (getLch (getLink s l) k.lch).seq true
  modLch s l k.lch fun y => { y with seq := (y.seq + 1) % 65536 }

/-- Reads that a link's prefetched cells still wait for are withdrawn. -/
def dropEgress (s : State) (l : Nat) : State :=
  (getLink s l).pre.foldl (fun s k => modCore s k.core fun x =>
    { x with bgr := x.bgr.filter fun r => match r.src with | .egress m _ _ => m != l | _ => true }) s

/-- A port core raises LINK_LOST (R398, R51), with the first cell it lost. -/
def coreLinkLost (s : State) (l core cause lch seq : Nat) : State :=
  let d := seq % 65536 * 2 ^ 32 + lch * 2 ^ 16 + cause * 2 ^ 8 + l
  let tag := BitVec.ofNat 20 (lch * 2 ^ 14 + seq % 2 ^ 14)
  let s := queueCar s { carRec s 4 l .linkLost true false d with tag := tag, step := coreStep s core, source := core }
  coreStop s core .linkLost tag 0 d

/-- Cells that a failing link loses: port core, channel, sequence number. -/
def lostCells (s : State) (l : Nat) : List (Nat × Nat × Nat) :=
  let x := getLink s l
  (x.sent.filterMap fun k => k.core.map fun c => (c.1, k.lch, k.seq)) ++ (x.pre.map fun k => (k.core, k.lch, (getLch x k.lch).seq)) ++
    ((List.range 64).filter fun q => decide (0 < readyCells s l q)).map fun q => (portCore l (getF s (lchReg l q) 61 56), q, (getLch x q).seq)

/-- The first cell of each port core. -/
def firstPerCore : List (Nat × Nat × Nat) → List Nat → List (Nat × Nat × Nat)
  | [], _ => []
  | (c, q, n) :: l, seen => if seen.contains c then firstPerCore l seen else (c, q, n) :: firstPerCore l (c :: seen)

/-- What stays held when a link fails: cells with a good copy that no late cell of their channel holds back. -/
def keepGood : List HeldCell → List Nat → List HeldCell
  | [], _ => []
  | h :: l, bad => if h.good && !bad.contains h.lch then h :: keepGood l bad else keepGood l (h.lch :: bad)

/-- LINK_DOWN (R398): the consequences of a failure: LINK_LOST receipts, port cores, cells that cannot be released. -/
def execLinkDown (l : Fin 40) (s : State) : Out :=
  match (getLink s l).failing with
  | none => .next s
  | some cause =>
    let lost := firstPerCore (lostCells s l) []
    let x := getLink s l
    let s := x.sent.foldl (fun s k => cellReceipt s l k true) s
    let s := x.pre.foldl (fun s k => losePre s l k) (dropEgress s l)
    let s := (List.range 64).foldl (fun s q => (List.range (readyCells s l q)).foldl (fun s _ => loseReady s l q) s) s
    let s := lost.foldl (fun s (c, q, n) => coreLinkLost s l c cause q n) s
    let s := if lost.isEmpty then queueCar s (carRec s 4 l .linkLost false false (cause * 2 ^ 8 + l)) else s
    let keep := keepGood x.held []
    let s := addF s (linkReg l oLnkUnderrun) 31 0 (x.held.length - keep.length)
    .next (modLink s l fun y => { y with failing := none, sent := [], pre := [], slots := [], held := keep, naks := [], toks := [] })

/-! ## LNK_CTL (R375, R397, R399) -/

/-- Training begins. -/
def startTraining (s : State) (l : Nat) : State :=
  let again := decide (lnkState s l = 4)
  let s := addF (setLnkState s l 1) (linkReg l oLnkEvents) 47 32 1
  modLink s l fun x => { x with step := 1, since := s.ns, frames := 0, missed := 0, ds := [], offs := [], spares := [], waiting := []
                                quiet := again || x.quiet, txDead := 0 }

/-- A write of LNK_CTL. -/
def linkCtlWrite (s : State) (l : Nat) (v : W64) : State :=
  let on := bitOf v.toNat 0
  let s := setF (setF s (linkReg l oLnkCtl) 3 3 (bitsOf v.toNat 3 3)) (linkReg l oLnkCtl) 0 0 on.toNat
  let s := if !on then
      (if lnkState s l = 0 then s else setLnkState (linkFails s l 4) l 0)
    else if lnkState s l = 0 then startTraining s l else s
  let s := if bitOf v.toNat 1 then linkFails s l 4 else s
  if bitOf v.toNat 2 && on && (lnkState s l == 4 || lnkState s l == 2) then startTraining s l else s

/-- LINK_EN (R375): a write of LNK_CTL; enabling a link starts its training. -/
def execLinkEn (m : Master) (l : Fin 40) (v : W64) (s : State) : Out :=
  .next (writeAccess m (linkReg l oLnkCtl) s fun s => (.ok, (linkCtlWrite s l v)))

/-- The value of LNK_CTL's kept bits, with another bit. -/
def ctlWith (s : State) (l bit : Nat) : W64 := BitVec.ofNat 64 (getF s (linkReg l oLnkCtl) 3 3 * 8 + bit + getF s (linkReg l oLnkCtl) 0 0)

/-- LINK_RETRAIN (R399): a write of retrain = 1. -/
def execLinkRetrain (m : Master) (l : Fin 40) (s : State) : Out :=
  .next (writeAccess m (linkReg l oLnkCtl) s fun s => (.ok, (linkCtlWrite s l (ctlWith s l 4))))

/-- LINK_FORCE_DOWN (R397): a write of down = 1. -/
def execLinkForceDown (m : Master) (l : Fin 40) (s : State) : Out :=
  .next (writeAccess m (linkReg l oLnkCtl) s fun s => (.ok, (linkCtlWrite s l (ctlWith s l 2))))

/-- LINK_RETRY (R375, R399): every 100 ms an enabled DOWN link with auto = 1 trains again. -/
def execLinkRetry (l : Fin 40) (s : State) : Out :=
  let r := linkReg l oLnkCtl
  if lnkState s l = 4 ∧ getB s r 3 ∧ getB s r 0 ∧ (getLink s l).downAt + 100000000 ≤ s.ns then .next (startTraining s l)
  else .next s

/-- Limits of the training steps in ns (R375). -/
def stepLimit : Nat → Nat
  | 1 => 1000000 | 2 => 1000000 | 3 => 4000000 | 4 => 64000 | 5 => 32000 | _ => 128000

/-- TRAINING_STEP_TIMEOUT (R375): a step has exceeded its limit, and the training fails with cause training. Steps 1 to 3
follow one another inside the optical engine; which of them it is, is an operand. -/
def execTrainingStepTimeout (l : Fin 40) (step : Fin 7) (s : State) : Out :=
  let x := getLink s l
  let here := if x.step ≤ 3 then decide (1 ≤ step.val) && decide (step.val ≤ 3) else step.val == x.step
  if lnkState s l = 1 ∧ x.step ≠ 0 ∧ here ∧ x.since + stepLimit step < s.ns then .next (linkFails s l 5) else .next s

/-! ## Lanes (R373, R374) -/

/-- Transmitter lanes of the receive direction that are not dead, lowest first. -/
def goodLanes (s : State) (l : Nat) : List Nat := (List.range 34).filter fun i => !getB s (linkReg l oLnkLanes) i

/-- Fills LNK_RXMAPk and the spare counts of LNK_STATUS from the lanes that are left. -/
def showLanes (s : State) (l : Nat) : State :=
  let x := getLink s l
  let used := (goodLanes s l).take 32
  let phys (i : Nat) : Nat := match x.lanes.getD (used.getD i 0) none with | some p => p | none => 0
  let s := (List.range 4).foldl (fun s k =>
    setReg s (linkReg l (oLnkRxmap + 8 * k)) (BitVec.ofNat 64 (((List.range 8).map fun j => phys (8 * k + j) * 2 ^ (6 * j)).sum))) s
  let s := setF s (linkReg l oLnkStatus) 22 21 (used.filter fun i => decide (32 ≤ i)).length
  let tx := ((List.range 34).filter fun i => !bitOf x.txDead i).take 32
  setF s (linkReg l oLnkStatus) 20 19 (tx.filter fun i => decide (32 ≤ i)).length

/-- A spare-in of a receive lane is asked for in the next header and takes effect two frames after it. -/
def askSpareIn (s : State) (l lane : Nat) : State :=
  let s := setF s (linkReg l oLnkStatus) 18 18 1
  modLink s l fun x => { x with spares := x.spares ++ [⟨curFrame s + 3, lane, false⟩] }

/-- LANE_FAILURE (R373 to R375): a receive lane loses signal or errs too often. In steps 4 to 6 the training goes back to
step 3; in UP a spare-in is requested, or the link fails with cause lanes. -/
def execLaneFailure (l : Fin 40) (lane : Fin 34) (s : State) : Out :=
  let x := getLink s l
  if lnkState s l = 1 then
    if 4 ≤ x.step then .next (modLink s l fun x => { x with step := 3, since := s.ns, frames := 0 }) else .next s
  else if lnkState s l ≠ 3 ∨ getB s (linkReg l oLnkLanes) lane then .next s
  else if (x.spares.any fun k => !k.tx && k.lane == lane) || x.waiting.contains lane.val then .next s
  else
    let gone := ((x.spares.filter (!·.tx)).length + x.waiting.length + 1)
    if (goodLanes s l).length < 32 + gone then .next (linkFails s l 1)
    else if x.spares.any (!·.tx) then .next (modLink s l fun x => { x with waiting := x.waiting ++ [lane.val] })
    else .next (askSpareIn s l lane)

/-- The spare-ins of a link whose frame has begun take effect. -/
def applySpares (s : State) (l n : Nat) : State :=
  let x := getLink s l
  let now := x.spares.filter fun k => decide (k.at_ ≤ n)
  if now.isEmpty then s
  else
    let s := now.foldl (fun s k =>
      let s := addF s (linkReg l oLnkEvents) 31 16 1
      if k.tx then modLink s l fun x => { x with txDead := x.txDead ||| 2 ^ k.lane }
      else setF s (linkReg l oLnkLanes) k.lane k.lane 1) s
    let s := modLink s l fun x => { x with spares := x.spares.filter fun k => decide (n < k.at_) }
    let s := showLanes s l
    let x := getLink s l
    if x.spares.any (!·.tx) then s
    else
      let s := setF s (linkReg l oLnkStatus) 18 18 0
      match x.waiting with
      | i :: rest => askSpareIn (modLink s l fun x => { x with waiting := rest }) l i
      | [] => s

/-! ## Slips (R393, R394) -/

/-- Shows the pending requests in LNK_SLIP_STATUS. -/
def showSlips (s : State) : State :=
  let r := modReg oLnkSlipStatus
  let es := s.dom.slips.map (·.1)
  let s := setF s r 18 15 (min 8 es.length)
  setF s r 14 0 (es.foldl min (es.headD 0))

/-- A request is known: it is announced on every UP link, once per effective frame. -/
def addSlip (s : State) (e origin : Nat) : State :=
  if s.dom.slips.any fun p => p.1 == e then s
  else showSlips { s with dom := { s.dom with slips := s.dom.slips ++ [(e, origin)] } }

/-- SLIP_MISSED (R394, R536): the effective frame has already started. -/
def slipMissed (s : State) (e origin : Nat) : State :=
  let s := setF s (modReg oLnkSlipStatus) 31 31 1
  let s := queueCar s (carRec s 5 0 .slipMissed true false (e % 2 ^ 48 * 2 ^ 16 + origin))
  forcedStop s .slip

/-- An announcement is learned. A request whose slip has been applied is known already. -/
def learnSlip (s : State) (e origin : Nat) : State :=
  if s.dom.slipped.contains e then s else if e ≤ curFrame s then slipMissed s e origin else addSlip s e origin

/-- SLIP_ANNOUNCE (R393): an announcement, with its origin and the low 15 bits of its effective frame, is learned. -/
def execSlipAnnounce (origin : Fin 32768) (frame : Fin 32768) (s : State) : Out :=
  .next (learnSlip s (nearFrame s 15 frame) origin)

/-- The module itself raises a request in frame n. -/
def raiseSlip (s : State) (n : Nat) : State :=
  addSlip s (n + getF s (modReg oLnkSlipCtl) 15 8) (getF s (modReg oLnkSelfPos) 14 0)

/-- SLIP_FRAME (R394): at the boundary before the effective frame a slip frame begins, and that frame starts 2,000 ns
later. -/
def execSlipFrame (s : State) : Out :=
  match s.dom.slips.find? fun p => decide (frameTime s p.1 ≤ quartz s) with
  | none => .next s
  | some p =>
    let s := { s with dom := { s.dom with slips := s.dom.slips.filter fun q => q.1 != p.1, slipped := s.dom.slipped ++ [p.1] } }
    .next (showSlips (addF s (modReg oLnkSlipStatus) 63 32 1))

/-! ## Frames (R378, R395 to R397) -/

/-- FRAME_START (R378): a frame begins at its Quartz time, and pending spare-ins take effect. A frame that a pending slip
delays does not begin before its slip frame. -/
def execFrameStart (s : State) : Out :=
  let base := (getReg s (modReg oLnkFrameBase)).toNat
  let q := quartz s
  if q < base then .next s
  else
    let n := (q - base) / 2000 - getF s (modReg oLnkSlipStatus) 63 32
    if n ≤ curFrame s ∨ q < frameTime s n ∨ s.dom.slips.any (fun p => decide (p.1 ≤ n)) then .next s
    else
      let s := setReg s (modReg oLnkFrame) (BitVec.ofNat 64 n)
      .next ((smKeys s.links).foldl (fun s l =>
        let s := modLink s l fun x => { x with missed := if lnkState s l = 3 then x.missed + 1 else 0 }
        applySpares s l n) s)

/-- SILENT_TIMEOUT (R397): no header with a good CRC for 5 frames. -/
def execSilentTimeout (l : Fin 40) (s : State) : Out :=
  if lnkState s l = 3 ∧ 5 ≤ (getLink s l).missed then .next (linkFails s l 3) else .next s

/-- Mean of a list, toward zero. -/
def meanInt (l : List Int) : Int := if l.isEmpty then 0 else (l.foldl (· + ·) 0).tdiv l.length

/-- Delay and offset from a header (R395), and exchange lock (R396), which a link at 1.2 never has (R377). `frac` is the fraction
of the decode time. -/
def exchange (s : State) (l frac : Nat) (h : Header) : State :=
  let rx : Int := 256 * (quartz s : Int) + frac
  let d : Int := ((rx - h.tEcho) - h.turn).tdiv 2
  let off : Int := (h.tTx + d) - rx
  let x := getLink s l
  let ds := (d :: x.ds).take 64
  let offs := (off :: x.offs).take 16
  let s := setLink s l { x with ds := ds, offs := offs }
  let mo := meanInt offs
  let s := setF s (linkReg l oLnkDelay) 31 0 (patternOf 32 (meanInt ds))
  let s := setF s (linkReg l oLnkQtz) 63 32 (patternOf 32 mo)
  let r := linkReg l oLnkQtz
  let s := if mo.natAbs ≤ 256 ∧ !isV12 s l then satF s r 15 0 1 else setF s r 15 0 0
  let lock := decide (64 ≤ getF s r 15 0)
  let was := getB s (linkReg l oLnkStatus) 23
  let s := setF s (linkReg l oLnkStatus) 23 23 lock.toNat
  if was && !lock && getF s (modReg oLnkQtzSrc) 5 0 == l && getB s (modReg oLnkQtzSrc) 6 then srcChange s 2 false else s

/-- Time depth of the module (R420). -/
def showDepth (s : State) : State :=
  let src := getF s (modReg oLnkQtzSrc) 5 0
  let d := if getB s (modReg oQtzTree) 63 then 0
    else if getB s (modReg oLnkQtzSrc) 6 && getB s (linkReg src oLnkStatus) 23 && lnkState s src == 3 && decide ((getLink s src).depth < 64) then
      (getLink s src).depth + 1
    else 255
  setF s (modReg oQtzTree) 7 0 d

/-- Received time depth of a link, if it may be the source: UP, of version 2.0, below 255 (R377, R420). -/
def linkDepth (s : State) (l : Nat) : Option Nat :=
  if lnkState s l = 3 ∧ !isV12 s l ∧ (getLink s l).depth < 255 then some (getLink s l).depth else none

/-- The UP tensor link whose received depth is smallest; ties go to the lower number (R421). -/
def bestSrc (s : State) : Option Nat :=
  (List.range 40).foldl (fun b l => match linkDepth s l, b.bind (linkDepth s) with
    | some d, some e => if d < e then some l else b
    | some _, none => some l
    | none, _ => b) none

/-- Firmware selects the link that the servo follows, where source 2 is enabled and the module is not the root (R420, R421). A
source that still has lock is kept until it is lost. -/
def selectLink (s : State) : State :=
  let r := modReg oLnkQtzSrc
  let cur := getF s r 5 0
  if !getB s (modReg oQtzCtl) 2 || getB s (modReg oQtzTree) 63 || !runtimeOn s ||
      (getB s r 6 && getB s (linkReg cur oLnkStatus) 23 && (linkDepth s cur).isSome) then s
  else match bestSrc s with
    | some l => setReg s r (BitVec.ofNat 64 (64 + l))
    | none => s

/-- Stores the peer's identity (R376). -/
def storeIdentity (s : State) (l : Nat) (h : Header) : State :=
  let s := setReg s (linkReg l oLnkPeerId) h.serial
  setReg s (linkReg l oLnkPeerInfo) (BitVec.ofNat 64 (2 ^ 63 + (if h.v20 then 0x20 else if h.v12 then 0x12 else 0) * 2 ^ 48 +
    h.domain.toNat * 2 ^ 32 + h.z.val * 2 ^ 25 + h.y.val * 2 ^ 20 + h.x.val * 2 ^ 15 + h.link.val))

/-- Does the identity differ from the expected one (R376)? -/
def mismatched (s : State) (l : Nat) (h : Header) : Bool :=
  let r := linkReg l oLnkPeerExpect
  getB s r 63 && !(getF s r 47 32 == h.domain.toNat && getF s r 29 25 == h.z.val && getF s r 24 20 == h.y.val &&
    getF s r 19 15 == h.x.val && getF s r 5 0 == h.link.val)

/-- A link enters MISMATCH, in which it carries frame headers only; Carnelian is signalled (R376). -/
def enterMismatch (s : State) (l : Nat) : State :=
  let s := addF (setF (setLnkState s l 2) (linkReg l oLnkStatus) 23 23 0) (linkReg l oLnkEvents) 15 0 1
  let s := modLink s l fun x => { x with step := 0 }
  let s := if getF s (modReg oLnkQtzSrc) 5 0 = l ∧ getB s (modReg oLnkQtzSrc) 6 then srcChange s 2 false else s
  signalHost s 9

/-- Steps 1 to 4 of the training meet a good header: the lane map stands, and frame lock is counted (R373, R375). -/
def trainLock (s : State) (l : Nat) (h : Header) : State :=
  let x := getLink s l
  if x.step ≤ 3 then
    let dead := (List.range 34).foldl (fun m i => if (h.lanes.getD i none).isNone then m + 2 ^ i else m) 0
    let s := setReg (setLink s l { x with step := 4, since := s.ns, frames := 1, lanes := h.lanes }) (linkReg l oLnkLanes) (BitVec.ofNat 64 dead)
    let s := showLanes s l
    if (goodLanes s l).length < 32 then linkFails s l 1 else s
  else if x.frames < 15 then setLink s l { x with frames := x.frames + 1 }
  else setLink s l { x with step := 5, since := s.ns, frames := 0 }

/-- Step 5: identities and versions (R376, R377); a module without a link in UP takes its slip count from the header. -/
def trainIdentity (s : State) (l : Nat) (h : Header) : State :=
  let s := storeIdentity s l h
  let s := if (List.range 40).any fun k => lnkState s k == 3 then s else setF s (modReg oLnkSlipStatus) 63 32 h.slips
  if !(h.v20 || h.v12) then linkFails s l 7
  else
    let s := setF s (linkReg l oLnkStatus) 15 8 (if h.v20 then 0x20 else 0x12)
    if mismatched s l h then enterMismatch (if (getLink s l).quiet then downRecord s l 6 else s) l
    else modLink s l fun x => { x with step := 6, since := s.ns, frames := 0, ds := [], offs := [] }

/-- Step 6: the delay over 64 frames, then UP. -/
def trainDelay (s : State) (l : Nat) : State :=
  let x := getLink s l
  if x.frames < 63 then setLink s l { x with frames := x.frames + 1 }
  else setLnkState (setLink s l { x with step := 0, frames := 0, missed := 0, held := [], sent := [], naks := [] }) l 3

/-- A spare-in that the peer asks for: both ends remove the lane at the start of the second frame after (R374). -/
def peerSpareIn (s : State) (l : Nat) (h : Header) : State :=
  match h.spareIn with
  | some i =>
    let x := getLink s l
    if bitOf x.txDead i || x.spares.any fun k => k.tx && k.lane == i then s
    else setLink s l { x with spares := x.spares ++ [⟨h.frame + 2, i, true⟩] }
  | none => s

/-- FRAME_HEADER_RX (R375 to R377, R379, R395, R396, R420): a good header; `frac` is the fraction of the Quartz time of its
decode in 1/256 ns. -/
def execFrameHeaderRx (l : Fin 40) (frac : Fin 256) (h : Header) (s : State) : Out :=
  let st := lnkState s l
  if st = 0 ∨ st = 4 then .next s
  else
    let s := modLink s l fun x => { x with missed := 0, depth := h.depth, mgmt := h.mgmt }
    let s := addF (addF s (linkReg l oLnkFec) 63 32 h.corrected) (linkReg l oLnkFec) 31 0 h.uncorrected
    let step := (getLink s l).step
    let s := if st = 1 then
        (if step ≤ 4 then trainLock s l h
        else if step = 5 then trainIdentity s l h
        else trainDelay (exchange s l frac h) l)
      else if st = 2 then storeIdentity s l h
      else
        let s := storeIdentity (exchange s l frac h) l h
        if mismatched s l h then enterMismatch s l else peerSpareIn s l h
    .next (showDepth (selectLink s))

/-! ## Egress (R382, R384, R388, R390, R391, R410, R413) -/

/-- A plan entry (R382). -/
def planEntry (s : State) (l n p : Nat) : Nat :=
  let row := n % (getF s (modReg oLnkSlipCtl) 2 0 + 1)
  let i := 1920 * row + p
  let r := linkReg l (oLnkPlan + 8 * (i / 2))
  if i % 2 = 0 then getF s r 31 0 else getF s r 63 32

/-- An active alternate entry (R401). -/
def altActive (s : State) (e : Nat) : Bool :=
  bitsOf e 31 30 == 2 && getB s (modReg (oLnkAltActive + 8 * (bitsOf e 29 23 / 64))) (bitsOf e 29 23 % 64)

/-- The peer's generation gate (R413); it stands while the step barrier is in use. -/
def genOpen (s : State) (l gen : Nat) : Bool :=
  !getB s (modReg oLnkStepCtl) 0 || decide (36 ≤ l) || getF s (modReg oLnkStepStatus) (4 * (l / 6) + 3) (4 * (l / 6)) == gen

/-- A cell leaves in a position: it enters the replay buffer. -/
def sendCell (s : State) (l n p q gen : Nat) (rows : List (List Byte)) (core : Option (Nat × Nat)) : State :=
  let y := getLch (getLink s l) q
  let k : SentCell := { frame := n, pos := p, lch := q, seq := y.seq, gen := gen, rows := rows, core := core }
  let s := modLch s l q fun y => { y with seq := (y.seq + 1) % 65536 }
  let s := if engineOf s l = l then s else actShared s (linkField l) 31 1
  addF (modLink (actShared s (linkField l) 28 1) l fun x => { x with sent := x.sent ++ [k] }) (linkReg l oLnkCells) 63 32 1

/-- A planned position is sent empty. -/
def underrun (s : State) (l : Nat) : State := addF s (linkReg l oLnkUnderrun) 63 32 1

/-- Asks for the rows of a prefetched cell: background reads of the last class of R94; with the core clocks stopped they are
made at once on the service clock (R387). -/
def askRows (s : State) (l : Nat) (k : PreCell) : State :=
  if s.clocksOn then
    modCore (modLink s l fun x => { x with pre := x.pre ++ [k] }) k.core fun x =>
      { x with bgr := x.bgr ++ (List.range k.rows.length).map fun i => ⟨.egress l k.id i, 32 * k.tile + i⟩ }
  else modLink s l fun x => { x with pre := x.pre ++ [readRest s k] }

/-- Cells of a channel that wait for a position, less the positions that wait for a cell: a cell that missed its own (R384). -/
def waitingCells (x : LinkSt) (q : Nat) : Nat := (x.pre.filter (·.lch == q)).length - (x.slots.filter (·.2.2 == q)).length

/-- The prefetch point of a ring channel's position (R384): a cell that missed its position takes this one; else the next ring
tile of the port core is asked for, if it is ready and the gate is open. -/
def egressRing (s : State) (l n p q : Nat) : State :=
  let r := lchReg l q
  let core := portCore l (getF s r 61 56)
  let gen := getF s (coreReg core oCoreCtrStatus) 19 16
  let slot (s : State) : State := modLink s l fun x => { x with slots := x.slots ++ [(n, p, q)] }
  if 0 < waitingCells (getLink s l) q then slot s
  else if readyCells s l q = 0 ∨ coreFenced s core ∨ !genOpen s l gen then underrun s l
  else
    let tile := getF s r 55 50 + (getLch (getLink s l) q).sent % (getF s r 49 46 + 1)
    let k : PreCell := { id := (getLink s l).preNext, lch := q, gen := gen, core := core, rcpt := getF s r 40 35, tile := tile
                         rows := List.replicate (getF s r 34 30 + 1) none }
    let s := modLch (slot s) l q fun y => { y with sent := (y.sent + 1) % 65536 }
    askRows (modLink s l fun x => { x with preNext := x.preNext + 1 }) l k

/-- The cell of a forwarding channel: the oldest that was handed over 50 ns before the position (R388). -/
def egressForward (s : State) (l n p q : Nat) : State :=
  match (getLch (getLink s l) q).fwd with
  | k :: rest =>
    if k.rel + 50 * 6400 ≤ posTime s l n p ∧ genOpen s l k.gen then
      sendCell (modLch s l q fun y => { y with fwd := rest }) l n p q k.gen k.rows none
    else underrun s l
  | [] => underrun s l

/-- The prefetch point of a plan or active alternate position of a channel. -/
def egress (s : State) (l n p q : Nat) : State :=
  if !carries s l then
    (if lnkState s (engineOf s l) = 4 ∧ 0 < readyCells s l q then loseReady (underrun s l) l q else underrun s l)
  else if 4096 ≤ (getLink s l).sent.length + (getLink s l).pre.length then underrun s l
  else if getB s (lchReg l q) 62 then modLink s l fun x => { x with slots := x.slots ++ [(n, p, q)] }
  else egressRing s l n p q

/-- A position starts: it carries the oldest prefetched cell of its channel, once all its rows have been read, and is empty
otherwise (R384); with the core clocks stopped the rows that are missing are read now (R387). -/
def startPosition (s : State) (l n p q : Nat) : State :=
  let s := modLink s l fun x => { x with slots := x.slots.filter (· ≠ (n, p, q)) }
  if getB s (lchReg l q) 62 then egressForward s l n p q
  else match (getLink s l).pre.find? (·.lch == q) with
    | some k =>
      if coreFenced s k.core then
        underrun (modLink s l fun x => { x with pre := x.pre.filter (·.id ≠ k.id) }) l
      else if (if s.clocksOn then k else readRest s k).rows.all (·.isSome) then
        let k := if s.clocksOn then k else readRest s k
        sendCell (modLink s l fun x => { x with pre := x.pre.filter (·.id ≠ k.id) }) l n p q k.gen (k.rows.map (·.getD [])) (some (k.core, k.rcpt))
      else underrun s l
    | none => underrun s l

/-- The positions of a link that have started. -/
def startPositions (s : State) (l : Nat) : State :=
  ((getLink s l).slots.filter fun k => reached s (posTime s l k.1 k.2.1)).foldl (fun s k => startPosition s l k.1 k.2.1 k.2.2) s

/-- A cell may be replayed in a reserve position that starts then: 25 ns after its NAK was decoded (R391). -/
def replayable (t : Nat) (k : SentCell) : Bool := match k.nakAt with | some a => decide (a + 25 * 6400 ≤ t) | none => false

/-- The row of a step token (R410). -/
def tokenRow (t : Token) : List Byte :=
  natLe 8 t.step.toNat ++ [BitVec.ofNat 8 t.release.toNat, BitVec.ofNat 8 t.level, BitVec.ofNat 8 t.gen] ++ List.replicate 21 0

/-- A free reserve position: a step token takes it where no replay waits for it (R380, R410). -/
def reserveFree (s : State) (l n p : Nat) : State :=
  let x := getLink s l
  let t := posTime s l n p
  if x.sent.any (replayable t) ∨ lnkState s (engineOf s l) ≠ 3 then s
  else match x.toks with
    | k :: rest =>
      if 6400 * k.ready ≤ t then
        modLink (sendCell (setLink s l { x with toks := rest }) l n p 63 k.gen [tokenRow k] none) l fun y => { y with resv := posNo n p }
      else s
    | [] => s

/-- CELL_PREFETCH (R384): the prefetch point of a position, 200 ns before its start. Positions are processed in order, each once;
its cell header takes one of the failures to be named (R390). Position 8g + i stands in place i of its group of eight, whose
last place is the reserve position (R380). -/
def execCellPrefetch (l : Fin 40) (n : Nat) (g : Fin 240) (i : Fin 8) (s : State) : Out :=
  let p := 8 * g.val + i.val
  let count := if isV12 s l then 480 else 1920
  if lnkState s l < 3 ∨ posNo n p ≤ (getLink s l).pos ∨ count ≤ p ∨ quartz s * 6400 + 6399 + 200 * 6400 < posTime s l n p then .next s
  else
    let s := modLink s l fun x => { x with pos := posNo n p, naks := x.naks.drop 1 }
    let e := planEntry s l n p
    if altActive s e && i.val == 7 then .next (egress (modLink s l fun x => { x with resv := posNo n p }) l n p (bitsOf e 5 0))
    else if i.val = 7 then .next (reserveFree s l n p)
    else if bitsOf e 31 30 = 1 then .next (egress s l n p (bitsOf e 5 0))
    else .next s

/-- REPLAY (R391): a named cell leaves again in a free reserve position; after eight attempts the link fails with cause
replay. -/
def execReplay (l : Fin 40) (n : Nat) (p : Fin 1920) (s : State) : Out :=
  let x := getLink s l
  let t := posTime s l n p
  if lnkState s (engineOf s l) ≠ 3 ∨ p.val % 8 ≠ 7 ∨ posNo n p ≤ x.resv ∨ altActive s (planEntry s l n p) ∨ !reached s t then .next s
  else match x.sent.find? (replayable t) with
    | none => .next s
    | some k =>
      if 8 ≤ k.tries then .next (linkFails s l 2)
      else
        let s := actShared s (linkField l) 30 1
        let s := addF (addF s (linkReg l oLnkReplay) 63 32 1) (linkReg l oLnkCells) 63 32 1
        .next (modLink s l fun x => { x with
          resv := posNo n p
          sent := x.sent.map fun j => if j = k then { j with frame := n, pos := p, tries := j.tries + 1, nakAt := none } else j })

/-! ## Ingress (R386, R388, R390 to R392) -/

/-- A cumulative acknowledgment: every cell last sent at or before the position is complete; a cell named in a negative
acknowledgment and not yet replayed is not. -/
def takeAck (s : State) (l n p : Nat) : State :=
  let x := getLink s l
  let ok (k : SentCell) : Bool := decide (posNo k.frame k.pos ≤ posNo n p) && k.nakAt.isNone
  let done := x.sent.filter ok
  done.foldl (fun s k => cellReceipt s l k false) (setLink s l { x with sent := x.sent.filter fun k => !ok k })

/-- A negative acknowledgment, decoded now. One that names no cell is ignored (R402). -/
def takeNak (s : State) (l n p : Nat) : State :=
  modLink s l fun x => { x with sent := x.sent.map fun k =>
    if k.frame = n ∧ k.pos = p then { k with nakAt := some (6400 * quartz s) } else k }

/-- A cell of the reverse direction (R390): its acknowledgments, its slip announcement. -/
def takeFields (s : State) (l : Nat) (c : Cell) : State :=
  let s := match c.nak with | some (f, p) => takeNak s l (nearFrame s 4 f) p | none => s
  let s := match c.ack with | some (f, p) => takeAck s l (nearFrame s 4 f) p | none => s
  match c.slip with | some (o, e) => learnSlip s (nearFrame s 15 e) o | none => s

/-- CELL_RX (R386, R390, R391): a cell arrives that was sent in the position given. A good first transmission is held to
its release time, a good replay stands in for the copy that failed; a cell that fails its CRC is named in a NAK, and its
place in its channel is kept. -/
def execCellRx (l : Fin 40) (n : Nat) (p : Fin 1920) (c : Cell) (s : State) : Out :=
  if lnkState s l ≠ 3 then .next s
  else
    let s := if c.good then takeFields s l c else modLink s l fun x => { x with naks := x.naks ++ [(n, p.val)] }
    let s := modLink s l fun x => { x with got := max x.got (posNo n p) }
    if c.empty then .next s
    else if c.replay then
      if !c.good then .next s
      else .next (modLink s l fun x => { x with
        held := x.held.map fun h => if h.lch = c.lch.val ∧ h.seq = c.seq.val ∧ !h.good then { h with good := true, gen := c.gen, rows := c.rows } else h })
    else
      let rel := relTime s l n p
      let h : HeldCell := { rel := rel, relFrame := n + (rel - 6400 * frameTime s n) / (6400 * 2000), lch := c.lch, seq := c.seq, gen := c.gen
                            rows := c.rows, good := c.good }
      .next (modLink s l fun x => { x with held := x.held ++ [h] })

/-- The first held cell of a channel. -/
def heldHead (x : LinkSt) (q : Nat) : Option HeldCell := x.held.find? fun h => h.lch == q

/-- Where the cells of a channel land: link and entry, after the forwards that lead to an entry with i_en (R388). -/
def landsAt (s : State) (l q : Nat) : Nat × Nat :=
  let r := lchReg l q
  if getB s r 28 ∧ getB s (lchReg (getF s r 15 10) (getF s r 9 4)) 29 then (getF s r 15 10, getF s r 9 4) else (l, q)

/-- The rows of a held cell may leave now: they have a free place in the queue of the port core, and its clock runs; a
forwarded cell needs neither (R386, R387). -/
def canLeave (s : State) (l : Nat) (h : HeldCell) : Bool :=
  let (l2, q2) := landsAt s l h.lch
  let r := lchReg l2 q2
  if getB s r 29 then
    let core := portCore l2 (getF s r 27 22)
    s.clocksOn && decide (((getCore s core).aq.getD (portDir l2) []).length + h.rows.length ≤ 32)
  else true

/-- A channel's head that may leave and comes before another: an earlier release time, or the same and a lower channel. -/
def goesBefore (s : State) (l : Nat) (h : HeldCell) (q : Nat) : Bool :=
  match heldHead (getLink s l) q with
  | some g => q != h.lch && g.good && !g.late && (decide (g.rel < h.rel) || (g.rel == h.rel && decide (q < h.lch))) && canLeave s l g
  | none => false

/-- The rows of a cell enter the arrival queue of the port core that an entry names, which drops them where it is fenced. -/
def landCell (s : State) (l q : Nat) (h : HeldCell) : State :=
  let r := lchReg l q
  let core := portCore l (getF s r 27 22)
  if coreFenced s core then s
  else (h.rows.zip (List.range h.rows.length)).foldl (fun s (row, i) =>
    portRow s l core (getF s r 21 16) h.gen h.lch h.seq (i == 0) (i + 1 == h.rows.length) row) s

/-- A released cell lands, is handed on, or is discarded: onto a DOWN link with LINK_LOST against the port core of the
channel that carried it (R398). -/
def deliverCell (s : State) (l : Nat) (h : HeldCell) : State :=
  let r := lchReg l h.lch
  let (l2, q2) := landsAt s l h.lch
  if getB s (lchReg l2 q2) 29 then landCell s l2 q2 h
  else if getB s r 28 then
    let dst := getF s r 15 10
    if lnkState s (engineOf s dst) = 4 then coreLinkLost s l (portCore l (getF s r 27 22)) (getF s (linkReg dst oLnkDownInfo) 62 56) h.lch h.seq
    else if getB s (lchReg dst (getF s r 9 4)) 62 then
      modLch s dst (getF s r 9 4) fun y => { y with fwd := y.fwd ++ [⟨h.rel, h.gen, h.rows⟩] }
    else s
  else s

/-- Removes the first held cell of a channel. -/
def dropHead (q : Nat) : List HeldCell → List HeldCell
  | [] => []
  | h :: l => if h.lch = q then l else h :: dropHead q l

/-- Does channel 63 carry step tokens (R410)? -/
def tokenChannel (s : State) (q : Nat) : Bool := q == 63 && getB s (modReg oLnkStepCtl) 0

/-- CELL_RELEASE (R386, R388, R392): at its release time the first held cell of a channel leaves. One without a good copy
is late, and raises a slip request in the frame that holds its release time. -/
def execCellRelease (l : Fin 40) (q : Fin 64) (s : State) : Out :=
  match heldHead (getLink s l) q with
  | none => .next s
  | some h =>
    if !reached s h.rel || tokenChannel s q then .next s
    else if !h.good then
      if h.late then .next s
      else
        let s := addF s (linkReg l oLnkReplay) 31 0 1
        let s := modLink s l fun x => { x with held := x.held.map fun g => if g = h then { g with late := true } else g }
        .next (raiseSlip s h.relFrame)
    else if !canLeave s l h || (!h.late && (List.range 64).any (goesBefore s l h)) then .next s
    else
      let s := modLink s l fun x => { x with held := dropHead q x.held }
      .next (deliverCell (addF (actShared s (linkField l) 29 1) (linkReg l oLnkCells) 31 0 1) l h)

end Sys2Proof.Machine
end

