-- ==== Sys2Proof/Machine/Domain.lean ====
section
/-! DEFINITION. Machine/Domain.lean: the release of a Garnet line and of the realign, the domain step barrier and timed
release, IEEE 1588 messages, checkpoint holds and twin mode (R252 to R255, R409 to R422, R439 to R450). -/
namespace Sys2Proof.Machine
open Sys2Proof

/-! ## The domain step barrier (R409 to R413) -/

/-- LNK_STEP_STATUS, LNK_STEP_PEERS. -/
def stepStat : Nat := modReg oLnkStepStatus
/-- LNK_STEP_PEERS. -/
def stepPeers : Nat := modReg oLnkStepPeers

/-- The domain has one module (LNK_DOMAIN_SHAPE). -/
def oneModule (s : State) : Bool := getF s (modReg oLnkDomainShape) 14 0 == 0

/-- The domain step barrier holds the realign (R252, R409). -/
def barrierOn (s : State) : Bool := getB s (modReg oGarRealign) 4 && getB s (modReg oLnkStepCtl) 0 && !oneModule s

/-- Used directions (LNK_STEP_CTL.dirs). -/
def usedDirs (s : State) : List Nat := (List.range 6).filter fun d => getB s (modReg oLnkStepCtl) (2 + d)

/-- A token goes out on every UP link of each used direction (R410). -/
def sendTokens (s : State) (t : Token) : State :=
  ((usedDirs s).map fun d => (List.range 6).map fun i => 6 * d + i).flatten.foldl (fun s l =>
    if lnkState s (engineOf s l) = 3 then modLink s l fun x => { x with toks := x.toks ++ [t] } else s) s

/-- Level received from a direction for the current step; none is 0xFF. -/
def peerLevel (s : State) (d : Nat) : Nat := getF s stepPeers (8 * d + 7) (8 * d)

/-- The module's level. -/
def myLevel (s : State) : Nat := getF s stepStat 39 32

/-- Every used direction has sent an arrive token of the module's level or higher. -/
def levelMet (s : State) : Bool :=
  (usedDirs s).all fun d => peerLevel s d != 0xFF && decide (myLevel s ≤ peerLevel s d)

/-- The level has reached radius (R411, R417, R419): the release token goes out; the release is applied 300 ns later, or at
the next timed instant; a confirmation too late for that raises STEP_LATE. -/
def levelReached (s : State) : State :=
  let now := quartz s
  let s := sendTokens s ⟨now, coreStep s 0, true, myLevel s, (modGen s + 1) % 16⟩
  let s := { s with dom := { s.dom with reached := some now } }
  if !getB s (modReg oLnkStepCtl) 1 then { s with dom := { s.dom with apply := some (now + 300) } }
  else
    let t := (getReg s (modReg oLnkStepNext)).toNat
    if now + getF s (modReg oLnkStepPeriod) 63 48 ≤ t then s
    else
      let s := addF s (modReg oLnkStepStats) 63 48 1
      let s := queueCar s (carRec s 5 0 .stepLate false false 0)
      let s := addF s (modReg oLnkStepNext) 63 0 (getF s (modReg oLnkStepPeriod) 39 0)
      { s with dom := { s.dom with apply := some (now + 300) } }

/-- Levels rise as far as the tokens received allow (R411), at most 64 times. -/
def raiseLevel : Nat → State → State
  | 0, s => s
  | n + 1, s =>
    let radius := getF s (modReg oLnkStepCtl) 23 16
    if myLevel s = radius then (if s.dom.reached.isNone then levelReached s else s)
    else if levelMet s then
      let s := setF s stepStat 39 32 (myLevel s + 1)
      let s := sendTokens s ⟨quartz s + 50, coreStep s 0, false, myLevel s, modGen s⟩
      raiseLevel n s
    else s

/-- The module arrives (R409, R411). -/
def domainArrive (s : State) : State :=
  let s := setF (setF s stepStat 40 40 1) stepStat 39 32 0
  let s := { s with dom := { s.dom with arrived := some (quartz s) } }
  let s := sendTokens s ⟨quartz s, coreStep s 0, false, 0, modGen s⟩
  raiseLevel 66 s

/-- An arrive token for the current step: the highest level of its direction counts. -/
def takeLevel (s : State) (d lvl : Nat) : State :=
  let p := peerLevel s d
  let s := if p = 0xFF ∨ p < lvl then setF s stepPeers (8 * d + 7) (8 * d) lvl else s
  if getB s stepStat 40 then raiseLevel 66 s else s

/-- A step token is taken (R410, R411, R413). -/
def takeToken (s : State) (d : Nat) (row : List Byte) : State :=
  let step := leNat (row.take 8)
  let lvl := (row.getD 9 0).toNat
  if (row.getD 8 0).toNat = 1 then setF s stepStat (4 * d + 3) (4 * d) ((row.getD 10 0).toNat % 16)
  else if step = (coreStep s 0).toNat then takeLevel s d lvl
  else if (coreStep s 0).toNat < step then { s with dom := { s.dom with ahead := s.dom.ahead ++ [(d, step, lvl)] } }
  else s

/-- STEP_TOKEN_RX (R410, R411): the first held token of a link is taken at its release time. -/
def execStepTokenRx (l : Fin 40) (s : State) : Out :=
  match heldHead (getLink s l) 63 with
  | none => .next s
  | some h =>
    if !tokenChannel s 63 || !h.good || !reached s h.rel then .next s
    else .next (takeToken (modLink s l fun x => { x with held := dropHead 63 x.held }) (l / 6) (h.rows.headD []))

/-- TIMED_RELEASE (R417): at LNK_STEP_NEXT the module applies its domain release, if its level reached radius early
enough. -/
def execTimedRelease (s : State) : Out :=
  let t := (getReg s (modReg oLnkStepNext)).toNat
  match s.dom.reached with
  | some r =>
    if getB s (modReg oLnkStepCtl) 1 && s.dom.apply.isNone && decide (t ≤ quartz s) && decide (r + getF s (modReg oLnkStepPeriod) 63 48 ≤ t) then
      .next (addF { s with dom := { s.dom with apply := some t } } (modReg oLnkStepNext) 63 0 (getF s (modReg oLnkStepPeriod) 39 0))
    else .next s
  | none => .next s

/-- The domain's release has been applied by now; a module outside a barrier waits for none. -/
def domainFree (s : State) : Bool :=
  !barrierOn s || match s.dom.apply with | some t => decide (t ≤ quartz s) | none => false

/-- After a realign the module is at a new step: levels from tokens kept for it (R411), the wait recorded (R429). -/
def domainNext (s : State) : State :=
  if s.dom.arrived.isNone then s
  else
    let wait := (s.dom.apply.getD (quartz s)) - s.dom.arrived.getD 0
    let s := setF s (modReg oLnkStepStats) 31 0 (min wait 0xFFFFFFFF)
    let s := setReg (setF (setF s stepStat 40 40 0) stepStat 39 32 0xFF) stepPeers 0xFFFFFFFFFFFF#64
    let now := (coreStep s 0).toNat
    let mine := s.dom.ahead.filter fun p => p.2.1 == now
    let s := { s with dom := { s.dom with arrived := none, reached := none, apply := none, ahead := s.dom.ahead.filter fun p => decide (now < p.2.1) } }
    mine.foldl (fun s p => takeLevel s p.1 p.2.2) s

/-! ## Checkpoint holds (R439, R440) -/

/-- The boundary that every core waits at carries the checkpoint phase. -/
def ckptBoundary (s : State) : Bool :=
  (garMembers s (realignLine s)).all fun c => getF s (coreReg c oCorePhase) 7 0 == getF s (modReg oModCkptCtl) 15 8

/-- A hold begins, if one is armed and this is a checkpoint boundary. -/
def ckptHold (s : State) : State :=
  if getB s (modReg oModCkptCtl) 0 && ckptBoundary s then
    let s := setF s (modReg oModCkptCtl) 0 0 0
    let s := addF (setF s (modReg oModCkptStatus) 63 63 1) (modReg oModCkptStatus) 31 0 1
    setReg s (modReg oModCkptStep) (coreStep s 0)
  else s

/-- A write of MOD_CKPT_CTL: phase and armed, and the release of a hold, from which horizons count. -/
def ckptWrite (s : State) (v : W64) : State :=
  let r := modReg oModCkptCtl
  let s := setF (setF s r 15 8 (bitsOf v.toNat 15 8)) r 0 0 (bitsOf v.toNat 0 0)
  if bitOf v.toNat 1 && getB s (modReg oModCkptStatus) 63 then
    let s := setF s (modReg oModCkptStatus) 63 63 0
    ((smKeys s.cores).filter fun c => (getCore s c).realArr.isSome).foldl
      (fun s c => modCore s c fun x => { x with realArr := some s.cycle }) s
  else s

/-- CKPT_RELEASE (R440): a write of MOD_CKPT_CTL. -/
def execCkptRelease (m : Master) (v : W64) (s : State) : Out :=
  .next (writeAccess m (modReg oModCkptCtl) s fun s => (.ok, (ckptWrite s v)))

/-- A write of MOD_STEP_SET: CORE_STEP of every core, only while all are in RESET (R442, R454). -/
def stepSetWrite (s : State) (v : W64) : Status × State :=
  if !allReset s then (.configRejected, s)
  else
    let isStep (a : Nat) : Bool := match decodeAddr a with | some (.core _ o) => o == 0x18000 + oCoreStep | _ => false
    (.ok, { s with stepBase := v, regs := s.regs.filter (fun p => !isStep p.1), twin := { s.twin with next := v.toNat, own := [], peer := [] } })

/-- MOD_STEP_SET (R442). -/
def execModStepSet (m : Master) (v : W64) (s : State) : Out :=
  .next (writeAccess m (modReg oModStepSet) s fun s => stepSetWrite s v)

/-! ## Twin mode (R444 to R450) -/

/-- Twin mode is on. -/
def twinOn (s : State) : Bool := getB s (modReg oModTwinCtl) 0

/-- The sum of a field's cluster digests for the ending step. -/
def fieldDigest (s : State) (f : Nat) : Nat :=
  ((smKeys s.clus).filter fun k => k / 256 == f).foldl (fun d k => (d + (getClu s k).digs.headD 0) % 2 ^ 128) 0

/-- The realign cycle of twin mode (R447): field digests are stored under the step's number, cluster digests move on. -/
def twinRealign (s : State) (step : Nat) : State :=
  if !twinOn s then s
  else
    let s := ((List.range 64).filter fun f => !fieldFenced s f).foldl (fun s f =>
      let d := fieldDigest s f
      let o := 0x20 * (step % 16)
      setReg (setReg (setReg s (fieldReg f (oFldTwinStep + o)) (BitVec.ofNat 64 step)) (fieldReg f (oFldTwinLo + o)) (BitVec.ofNat 64 d))
        (fieldReg f (oFldTwinHi + o)) (BitVec.ofNat 64 (d / 2 ^ 64))) s
    (smKeys s.clus).foldl (fun s k => modClu s k fun y => { y with digs := y.digs.tail }) s

/-- Entries of a field's capture buffer: 257 for each of 256 clusters, or for each of 64 cores (R450). -/
def fineCount (level : Nat) : Nat := if level = 1 then 257 * 256 else 257 * 64

/-- The buffers of a capture are written once the captured step has realigned (R450, R451). -/
def fineRealign (s : State) (step : Nat) : State :=
  let t := modReg oModTwinCtl
  let level := getF s t 3 2
  if level = 0 ∨ step ≠ (getReg s (modReg oModTwinFineStep)).toNat then s
  else
    let fs := if level = 1 then (List.range 64).filter (fun f => !fieldFenced s f) else [getF s t 43 38]
    let s := fs.foldl (fun s f =>
      let x := getField s f
      let a := memBase f + getF s (fieldReg f oFldTwinBuf) 33 0
      let n := if level = 3 then 32 * x.fineLog.length else 16 * fineCount level
      let s := addF s (clsCount f 1) 63 32 (granulesOf a n)
      let s := if level = 3 then wrBytes { s with twin := { s.twin with logN := x.fineLog.length } } a x.fineLog.flatten
        else (List.range (fineCount level)).foldl (fun s e => wrNat s (a + 16 * e) 16 (smGet 0 e x.fine)) s
      modField s f fun x => { x with fine := [], fineLog := [] }) s
    setF s (modReg oModTwinStatus) 32 32 1

/-- Records a divergence (R449, R453): the first one is kept, and kinds 1 to 3 arm the checkpoint hold. -/
def twinDiverge (s : State) (kind step fields : Nat) : State :=
  let r := modReg oModTwinStatus
  let s := addF s r 31 0 1
  let s := if getB s r 63 then s
    else setReg (setReg (setF (setF s r 63 63 1) r 62 60 kind) (modReg oModTwinDivStep) (BitVec.ofNat 64 step))
      (modReg oModTwinFields) (BitVec.ofNat 64 fields)
  let s := if kind = 4 then s else setF s (modReg oModCkptCtl) 0 0 1
  signalHost (queueCar s (carRec s 5 kind .twinDivergence false false (getReg s (modReg oModTwinFields)).toNat)) 10

/-- Fields whose digests differ. -/
def differing (a b : List Nat) : Nat :=
  (List.range 64).foldl (fun m f => if a.getD f 0 = b.getD f 0 then m else m + 2 ^ f) 0

/-- Compares an own record with the partner's for its step. -/
def compareRecs (s : State) (a b : TwinRec) : State :=
  if a.image ≠ b.image ∨ a.seed ≠ b.seed then twinDiverge s 3 a.step 0
  else
    let d := differing a.digests b.digests
    if d = 0 then s else twinDiverge s 1 a.step d

/-- Compares every own record that has a partner's record for its step. -/
def compareAll (s : State) : State :=
  let pairs := s.twin.own.filterMap fun a => (s.twin.peer.find? fun b => b.step == a.step).map fun b => (a, b)
  let s := pairs.foldl (fun s p => compareRecs s p.1 p.2) s
  let done (r : TwinRec) : Bool := pairs.any fun p => p.1.step == r.step
  { s with twin := { s.twin with own := s.twin.own.filter fun r => !done r, peer := s.twin.peer.filter fun r => !done r } }

/-! ## Bisection (R450 to R452) -/

/-- Sort key of an entry of the write log (R451): issue index, source and beat of a scheduled write, row and hash of a
background write. -/
def logKey (e : List Byte) : List Nat :=
  let i := leNat (e.take 4)
  if i = 0xFFFFFFFF then [leNat ((e.drop 6).take 2), leNat ((e.drop 16).take 8)]
  else [i, (e.getD 4 0).toNat, (e.getD 5 0).toNat]

/-- Order of keys. -/
def keyLt : List Nat → List Nat → Bool
  | [], _ => false
  | _ :: _, [] => false
  | a :: l, b :: m => decide (a < b) || (a == b && keyLt l m)

/-- Puts an entry into a sorted log. -/
def insertLog (e : List Byte) : List (List Byte) → List (List Byte)
  | [] => [e]
  | d :: l => if keyLt (logKey e) (logKey d) then e :: d :: l else d :: insertLog e l

/-- The scheduled or the background entries of a log, sorted. -/
def sortedLog (back : Bool) (l : List (List Byte)) : List (List Byte) :=
  (l.filter fun e => (leNat (e.take 4) == 0xFFFFFFFF) == back).foldl (fun m e => insertLog e m) []

/-- The first entry in which two sorted logs differ. -/
def firstDiff : List (List Byte) → List (List Byte) → Option (List Byte)
  | a :: l, b :: m => if a = b then firstDiff l m else some a
  | a :: _, [] => some a
  | [], b :: _ => some b
  | [], [] => none

/-- The log that this module's capture has written. -/
def ownLog (s : State) (f : Nat) : List (List Byte) :=
  (List.range s.twin.logN).map fun i => rdBytes s (memBase f + getF s (fieldReg f oFldTwinBuf) 33 0 + 32 * i) 32

/-- The comparison of the two write logs, level 3: the report, or a replay without a difference (R449, R451, R452). -/
def compareLogs (s : State) (step : Nat) (c : TwinCap) : State :=
  let t := modReg oModTwinCtl
  let f := getF s t 43 38
  let own := ownLog s f
  let sched := firstDiff (sortedLog false own) (sortedLog false c.log)
  let back := firstDiff (sortedLog true own) (sortedLog true c.log)
  match sched.or back with
  | none => twinDiverge s 4 step 0
  | some e =>
    let r : TwinReport :=
      { step := step, field := f, cluster := getF s t 51 44, window := getF s t 35 20
        core := coreOfClu (256 * f + getF s t 51 44) (getF s t 57 52), tag := leNat ((e.drop 12).take 4)
        source := (e.getD 4 0).toNat, beat := (e.getD 5 0).toNat, row := leNat ((e.drop 6).take 2), background := back.isSome }
    signalHost { s with twin := { s.twin with report := some r } } 10

/-- The comparison of the two capture buffers, levels 1 and 2: the earliest window that differs, the lowest cluster or core of
it, and whether background entries differ (R450). -/
def compareFine (s : State) (step : Nat) (c : TwinCap) : State :=
  let level := getF s (modReg oModTwinCtl) 3 2
  let f := if level = 1 then c.field else getF s (modReg oModTwinCtl) 43 38
  let a := memBase f + getF s (fieldReg f oFldTwinBuf) 33 0
  let diff (e : Nat) : Bool := rdNat s (a + 16 * e) 16 != c.digests.getD e 0
  let units := fineCount level / 257
  let back := (List.range units).any fun u => diff (257 * u + 256)
  match (List.range 256).findSome? fun w => ((List.range units).find? fun u => diff (257 * u + w)).map fun u => (u, w) with
  | none =>
    if back then { s with twin := { s.twin with earliest := none, backDiff := true } } else twinDiverge s 4 step 0
  | some (u, w) =>
    { s with twin := { s.twin with earliest := some (u, getF s (modReg oModTwinCtl) 35 20 + w), backDiff := back } }

/-- A capture of the partner is compared with the module's own of the same step and level, once that is complete. -/
def compareCapture (s : State) (step : Nat) (c : TwinCap) : State :=
  let level := getF s (modReg oModTwinCtl) 3 2
  if !getB s (modReg oModTwinStatus) 32 || level == 0 || c.level != level || step != (getReg s (modReg oModTwinFineStep)).toNat then s
  else if level = 3 then compareLogs s step c
  else compareFine s step c

/-- The digest of a field that FLD_TWIN holds for a step. -/
def heldDigest (s : State) (f step : Nat) : Nat :=
  let o := 0x20 * (step % 16)
  (getReg s (fieldReg f (oFldTwinLo + o))).toNat + 2 ^ 64 * (getReg s (fieldReg f (oFldTwinHi + o))).toNat

/-- Image identity of the loaded program (R560). -/
def imageId (s : State) : Nat := match s.boot.prog with | some p => p.image | none => 0

/-- TWIN_RECORD_SEND (R448): Carnelian reads the digests of the oldest step not yet sent, and sends their record. -/
def execTwinRecordSend (s : State) : Out :=
  let step := s.twin.next
  if twinOn s && decide (step < (coreStep s 0).toNat) then
    let r : TwinRec := { step := step, image := imageId s, seed := (getReg s (modReg oModRngSeed)).toNat
                         digests := (List.range 64).map fun f => heldDigest s f step }
    .next (compareAll { s with twin := { s.twin with own := s.twin.own ++ [r], next := step + 1 } })
  else .next s

/-- TWIN_RECORD_RX (R449): a record of the partner is compared with the module's own; one that carries a capture is compared with
the module's own capture (R451, R452). -/
def execTwinRecordRx (r : TwinRec) (s : State) : Out :=
  if !twinOn s then .next s
  else
    let s := { s with twin := { s.twin with last := s.ns } }
    match r.capture with
    | some c => .next (compareCapture s r.step c)
    | none => .next (compareAll { s with twin := { s.twin with peer := s.twin.peer ++ [r] } })

/-- TWIN_SILENCE (R449): no record for silent_ms. -/
def execTwinSilence (s : State) : Out :=
  if twinOn s && decide (s.twin.last + 1000000 * getF s (modReg oModTwinLimits) 15 0 ≤ s.ns) then
    .next (twinDiverge { s with twin := { s.twin with last := s.ns } } 2 (coreStep s 0).toNat 0)
  else .next s

/-- The leader of a twin pair holds its realign at the lag limit (R448). -/
def twinFree (s : State) : Bool :=
  !twinOn s || match s.twin.own with
    | r :: _ => decide ((coreStep s 0).toNat < r.step + getF s (modReg oModTwinLimits) 47 32)
    | [] => true

/-! ## Releases (R252, R254, R260) -/

/-- The module-scope release of the realign line: the module's own hold and the domain's barrier begin. -/
def moduleRelease (s : State) : State :=
  let s := ckptHold { s with realDue := some s.cycle }
  if barrierOn s then domainArrive s else s

/-- HUSH_STOP (R353): at the hush cycle of a hush point whose last arrival found req set, every field stops and the changes are
applied. The module-scope release of the realign line falls in that cycle: a domain step barrier goes on during the hush, and
the realign follows it. -/
def execHushStop (n : Fin 8) (s : State) : Out :=
  if s.clocksOn && s.clk.kind == 0 && hushPoint s n then
    let g := freqN s
    let s := setGar s n { getGar s n with hush := false }
    let s := passHushPoint (throttleHush (hushStop s 1)) n g
    .next (if n.val = realignLine s ∧ s.realDue.isNone then moduleRelease s else s)
  else .next s

/-- GARNET_RELEASE (R260, R252): L cycles after its last arrival a line releases. A hush point is taken first (R353). -/
def execGarnetRelease (n : Fin 8) (s : State) : Out :=
  if s.clocksOn && lineFull s n && decide (releaseCycle s n ≤ s.cycle) && !(getGar s n).hush then
    if n.val = realignLine s then (if s.realDue.isSome then .next s else .next (moduleRelease (passHushPoint s n (freqN s))))
    else .next (releaseLine (passHushPoint s n (freqN s)) n)
  else .next s

/-- Every other group of a line in fallback has released: its members have arrived and none is counted (DESIGN CHOICE: R252 and
R265 do not say how several groups of the realign line release it). -/
def groupsOver (s : State) (n g : Nat) : Bool :=
  ((garMembers s n).all fun c => getF s (garReg c n) 9 6 == g || getB s (garReg c n) 10) &&
    (List.range 16).all fun h => getF s (modReg (oGarFbexpG + 0x80 * n + 8 * h)) 52 32 == 0

/-- FALLBACK_RELEASE (R252, R265): a group has its expected count, and none of its members is fenced: no barrier that
includes a fence completes (R28, R246); the release is broadcast to the members of the group. On the
realign line it is the module-scope release, once no other group is awaited. -/
def execFallbackRelease (n : Fin 8) (g : Fin 16) (s : State) : Out :=
  let e := modReg (oGarFbexpG + 0x80 * n + 8 * g)
  if s.clocksOn && getB s (modReg (oGarLineCtl + 8 * n)) 0 && getF s e 20 0 != 0 && getF s e 52 32 == getF s e 20 0 &&
      (garMembers s n).all (fun c => getF s (garReg c n) 9 6 != g || !coreFenced s c) then
    let time := quartz s - (getGar s n).lastNs.getD g 0
    let s := addF (setF s e 52 32 0) (modReg oGarFbStats) 31 0 1
    let s := if getF s (modReg oGarFbStats) 63 32 < time then setF s (modReg oGarFbStats) 63 32 time else s
    if n.val = realignLine s then .next (if groupsOver s n g then moduleRelease s else s)
    else .next (((garMembers s n).filter fun c => getF s (garReg c n) 9 6 == g && !coreFenced s c).foldl (fun s c => takeRelease s n true c) s)
  else .next s

/-- May the realign proceed: released by the line, by a checkpoint hold, by the twin's lag and by the domain? -/
def realignFree (s : State) : Bool :=
  s.clocksOn && s.realDue.isSome && !getB s (modReg oModCkptStatus) 63 && twinFree s && domainFree s

/-- Field energies at the realign (R498), and the step's entry for the energy log. -/
def energyStep (s : State) (step : Nat) : State :=
  let s := (List.range 64).foldl (fun s f => setReg s (fieldReg f oFldEnergyStep) (getReg s (fieldReg f oFldEnergy))) s
  { s with pwr := { s.pwr with due := s.pwr.due ++ [⟨step, getF s (coreReg 0 oCorePhase) 7 0, quartz s⟩] } }

/-- The largest displacements of the crossings start again (R350). -/
def clearDisp (s : State) : State :=
  (List.range 64).foldl (fun s f => (List.range 4).foldl (fun s e => setF s (fieldReg f (oFldXingStatus + 8 * e)) 7 0 0) s) s

/-- REALIGN (R252 to R255, R346, R348, R361, R447, R498): the realign cycle of the module. -/
def execRealign (s : State) : Out :=
  if realignFree s then
    let step := (coreStep s 0).toNat
    let ms := garMembers s (realignLine s)
    let s := clearDisp (correctFields (phaseReset (equalise s)))
    let s := energyStep (fineRealign (twinRealign s step) step) step
    let s := ms.foldl realignCore (ms.foldl realignOver { s with realDue := none })
    .next (domainNext (setStepStarts s))
  else .next s

/-! ## IEEE 1588 (R428, R430) -/

/-- PTP_MESSAGE (R428, R430): a message gives the offset from the master, in ns. -/
def execPtpMessage (offset : BitVec 32) (s : State) : Out :=
  if !getB s (modReg oQtzCtl) 1 then .next s
  else
    let r := modReg oQtz1588Status
    let near := decide (offset.toInt.natAbs ≤ 20)
    let since := if near then some (s.dom.ptpSince.getD s.ns) else none
    let s := { s with dom := { s.dom with ptpSince := since } }
    let s := setF (setF s r 63 32 offset.toNat) r 3 0 (if near then 3 else 2)
    let s := setF s r 23 16 (match since with | some t => min 255 ((s.ns - t) / 1000000000) | none => 0)
    .next (if qtzSrc s = 1 then setF s (modReg oQtzStatus) 63 32 offset.toNat else s)

end Sys2Proof.Machine
end

