-- ==== Sys2Proof/Machine/Power.lean ====
section
/-! DEFINITION. Machine/Power.lean: the input, the shaper, brace, shutdown, ramps, thermal limits, energy accounting, the
gauge and the SMBus port (R474, R480 to R508). -/
namespace Sys2Proof.Machine
open Sys2Proof

/-! ## Small pieces -/

/-- A signed 16-bit value. -/
def s16 (v : BitVec 16) : Int := v.toInt

/-- Pacing level (R488). -/
def paceOf (s : State) : Nat := getF s (modReg oPwrStatus) 11 8

/-- Sets the pacing level; a rise from 0 is counted. -/
def setPace (s : State) (p : Nat) : State :=
  let s := if paceOf s = 0 ∧ p ≠ 0 then addF s (modReg oPwrEvents) 63 48 1 else s
  setF s (modReg oPwrStatus) 11 8 p

/-- PWR_STATUS.state as the module stands (R506). -/
def showPwrState (s : State) : State :=
  pwrState s (match s.pwr.brace with
    | some t => if s.pwr.dipOver || decide (t + 50000 ≤ s.ns) then 2 else 1
    | none => if s.pwr.ramp.isSome then 3 else if s.pwr.reserve then 4 else if s.clk.kind = 3 then 5 else 0)

/-- A cause of the forced stop ends; the last one to end starts the ramp (R491). -/
def endCause (s : State) (c : StopCause) : State :=
  let s := { s with clk := { s.clk with causes := s.clk.causes.filter (· ≠ c) } }
  if s.clk.kind = 3 ∧ s.clk.causes = [] ∧ s.pwr.ramp = none then beginRamp s else s

/-- Gateways whose admitted transactions are complete enter self-refresh (R331, R499). -/
def enterRefresh (s : State) : State :=
  (List.range 64).foldl (fun s f =>
    if !fieldFenced s f && (getField s f).txns.all (fun t => t.stage != .tracker) then setF s (fieldReg f oGwStatus) 44 44 1 else s) s

/-! ## A live update that meets a dip (R528, R531) -/

/-- Sets CLK_HUSH_CTL.req, as firmware does. -/
def askHush (s : State) : State :=
  setF s (modReg oClkHushCtl) 0 0 1

/-- Every core is in RESET, STOPPED, FAULTED, HELD or FENCED (R528, R351). -/
def updateIdle (s : State) : Bool := s.clk.kind == 0 && idleOk s

/-- Step 3 of R528: an idle hush, or a request for the next one. -/
def updateHush (s : State) : State := if updateIdle s then hushStop s 2 else askHush s

/-- A dip before step 4: the update waits for the brace to end. -/
def updateWaits (s : State) : State :=
  if updState s = 2 then { s with boot := { s.boot with update := s.boot.update.map fun a => { a with ready := false, waits := true } } } else s

/-- The module runs again: a waiting update goes on at step 3. -/
def updateGoesOn (s : State) : State := match s.boot.update with
  | some a => if a.waits then updateHush { s with boot := { s.boot with update := some { a with waits := false, since := s.ns } } } else s
  | none => s

/-! ## Input, brace, shutdown (R483, R499, R500) -/

/-- INPUT_CLASSIFIED (R483): the input has entered or left the band below 48 V, the band above 60 V. -/
def execInputClassified (low high : Bool) (s : State) : Out :=
  let s := if low then raiseAlert s 0 else dropAlert s 0
  .next (if high then raiseAlert s 1 else dropAlert s 1)

/-- An input voltage in mV is a dip. -/
def isDip (vin : BitVec 16) : Bool := decide (vin.toNat < 46000) || decide (63000 < vin.toNat)

/-- Brace entry (R499). -/
def braceEntry (s : State) (vin : BitVec 16) : State :=
  let s := { s with pwr := { s.pwr with brace := some s.ns, dipOver := false, ramp := none, refreshOut := false, charging := false } }
  let s := updateWaits (forcedStop s .brace)
  let r := modReg oPwrBraceStatus
  let s := setF (addF s r 63 48 1) r 15 0 (min 0xFFFF (usable s / 1000))
  let s := queueCar s (carRec s 5 0 .powerBrace false false (usable s / 1000 % 2 ^ 16 * 2 ^ 32 + vin.toNat))
  showPwrState (enterRefresh (raiseAlert s 2))

/-- DIP (R483, R499): an input out of range for 10 µs disconnects the input stage, and the module enters brace. -/
def execDip (vin : BitVec 16) (s : State) : Out :=
  if s.boot.power && isDip vin && !inBrace s then .next (braceEntry s vin) else .next s

/-- BRACE_EXIT (R500): the dip has ended; rails return, the gateways leave self-refresh with the next refresh frame (R331), the store recharges. Its length counts
from the dip's start, 10 µs before the brace (R499). -/
def execBraceExit (s : State) : Out :=
  match s.pwr.brace with
  | some t =>
    if s.pwr.dipOver then .next s
    else
      let s := setF s (modReg oPwrBraceStatus) 47 32 ((s.ns - t + 10000) / 1000000)
      .next (showPwrState { s with pwr := { s.pwr with dipOver := true, refreshOut := true } })
  | none => .next s

/-- Every converter stops (R500): what is left is the flash, the pins, the shutdown record and the input's measurements
(R508), and the discharge switch closes (R503). -/
def powerOff (s : State) (cause : Nat) : State :=
  let b : State := { State.reset with pending := s.pending, freeCtr := s.freeCtr, reply := s.reply
                                      boot := { flash := s.boot.flash, flog := s.boot.flog, flogN := s.boot.flogN, defects := s.boot.defects, mated := s.boot.mated, dbgEn := s.boot.dbgEn, power := false }
                                      host := { perst := s.host.perst, link := false }
                                      pwr := { discharge := true, dischAbs := true } }
  let b := setReg b (modReg oPwrInput) (getReg s (modReg oPwrInput))
  if cause = 0 then setReg b (modReg oPwrShutdown) (getReg s (modReg oPwrShutdown))
  else setReg b (modReg oPwrShutdown) (BitVec.ofNat 64 (2 ^ 63 + cause))

/-- Cause of a shutdown in brace, 0 for none (R500, R505). -/
def shutdownCause (s : State) : Nat :=
  match s.pwr.brace with
  | some t =>
    if s.pwr.dipOver then 0
    else if usable s = 0 then 2
    else if t + 1000000 * getF s (modReg oPwrBraceCtl) 7 0 ≤ s.ns then 1 else 0
  | none => 0

/-- SHUTDOWN (R500): brace_max_ms has passed while the dip lasts, or the usable energy has reached 0. -/
def execShutdown (s : State) : Out := if shutdownCause s = 0 then .next s else .next (powerOff s (shutdownCause s))

/-- THERMAL_TRIP (R504, R505): a field at or above 115 °C shuts the module down, in brace too. -/
def execThermalTrip (f : FieldId) (temp : BitVec 16) (s : State) : Out :=
  if s.boot.power && decide (11500 ≤ s16 temp) then .next (powerOff (setF s (fieldReg f oFldPwrStatus) 63 48 temp.toNat) 3) else .next s

/-- DISCHARGE (R503): the discharge switch follows the input and the store: absent for 150 ms, or above 60 J, it closes; it
opens below 59 J, or with input present again below 0.5 J. A shutdown record lasts while input is present (R508). -/
def execDischarge (present : Bool) (vStore : BitVec 16) (s : State) : Out :=
  let s := showHoldup (storeMeasured s vStore.toNat)
  let e := eHigh s
  let shut (s : State) (abs : Bool) : State := { s with pwr := { s.pwr with discharge := true, dischAbs := abs } }
  if !present then
    let s := shut s true
    .next (if s.boot.power then s else setReg (setReg s (modReg oPwrShutdown) 0#64) (modReg oPwrInput) 0#64)
  else if !s.pwr.discharge then .next (if 60000000 < e then shut s false else s)
  else if decide (e < (if s.pwr.dischAbs then 500000 else 59000000)) then
    .next { s with pwr := { s.pwr with discharge := false, dischAbs := false } }
  else .next s

/-! ## The shaper (R486 to R491) -/

/-- The measurements of a microsecond (R356, R484, R501, R506). -/
def measure (s : State) (x : PowerSample) : State :=
  let s := setReg s (modReg oPwrInput) (BitVec.ofNat 64 (x.vin.toNat * 2 ^ 48 + x.iin.toNat * 2 ^ 32 + x.pin.toNat * 2 ^ 16))
  let r := modReg oPwrStatus
  let s := setF (setF s r 63 48 x.mean.toNat) r 47 32 x.mean100.toNat
  let s := addF s (modReg oPwrEnergyIn) 63 0 x.energy
  let s := { s with pwr := { s.pwr with gauge := max 0 (s.pwr.gauge + x.store), seenP := true } }
  let s := storeMeasured { s with clk := { s.clk with unready := !x.ready } } x.vStore.toNat
  let m := s.pwr.means
  let prior := m.getD 99 x.mean.toNat
  let calm := if prior * 10 + getF s (modReg oPwrShapeCtl) 63 48 < x.mean.toNat * 10 then 0 else s.pwr.calm + 1
  showHoldup { s with pwr := { s.pwr with means := (x.mean.toNat :: m).take 100, calm := calm } }

/-- The microsecond of a brace: the lowest usable energy; gateways still on their way into self-refresh; the end of the
recharge (R499, R500). -/
def braceTick (s : State) : State :=
  if inBrace s then
    let r := modReg oPwrBraceStatus
    let u := min 0xFFFF (usable s / 1000)
    enterRefresh (if u < getF s r 15 0 then setF s r 15 0 u else s)
  else if s.pwr.brace.isSome && decide (paceE s < usable s) then
    endCause { s with pwr := { s.pwr with brace := none, dipOver := false } } .brace
  else s

/-- The reserve stop (R490): below the reserve it begins, 1 J above the pacing threshold it ends. -/
def reserveTick (s : State) : State :=
  if inBrace s then s
  else if s.pwr.reserve then
    if paceE s + 1000000 ≤ usable s then endCause { s with pwr := { s.pwr with reserve := false } } .reserve else s
  else if usable s < reserveE s then
    addF (forcedStop { s with pwr := { s.pwr with reserve := true, ramp := none } } .reserve) (modReg oPwrEvents) 47 32 1
  else s

/-- Something asks for pacing (R489). -/
def paceAsked (s : State) : Bool :=
  decide (110 * getF s (modReg oPwrCapCtl) 14 0 < 100 * getF s (modReg oPwrStatus) 63 48) || decide (usable s < paceE s) || s.pwr.limit

/-- The pacing level of the next microsecond (R489). -/
def paceTick (s : State) : State :=
  let p := paceOf s
  if paceAsked s then setPace s (if s.pwr.limit then 4 else min 4 (p + 1))
  else if p ≠ 0 ∧ 1000 ≤ s.pwr.calm then setPace { s with pwr := { s.pwr with calm := 0 } } (p - 1)
  else s

/-- Requested ghost steps per 4 cycles (R487): none in brace, in a reserve stop and above the cap; some below the floor;
how many, the shaper chooses: a free value. -/
def ghostTick (s : State) : State :=
  let mean := getF s (modReg oPwrStatus) 63 48
  let off := s.pwr.brace.isSome || s.pwr.reserve || decide (getF s (modReg oPwrCapCtl) 14 0 ≤ mean)
  let below := decide (100 * mean < getF s (modReg oPwrShapeCtl) 39 32 * getF s (modReg oPwrStatus) 47 32)
  let (v, s) := drawFree s
  let g := if off then 0 else if below then 1 + v.toNat % 4 else v.toNat % 5
  ((List.range 64).filter fun f => !fieldFenced s f).foldl (fun s f => setF s (fieldReg f oFldPwrStatus) 2 0 g) s

/-- Power above the cap: an alert (R474); in fixed-frequency mode a 10 ms mean above it makes a governor request (R496). -/
def capTick (s : State) (mean10 : Nat) : State :=
  let cap := getF s (modReg oPwrCapCtl) 14 0
  let s := if cap < getF s (modReg oPwrStatus) 63 48 then raiseAlert s 3 else s
  if runtimeOn s && fixedMode s && decide (cap < mean10) then { s with clk := { s.clk with govReq := true } } else s

/-- SHAPER_TICK (R489): what the shaper does each microsecond with what is measured. -/
def execShaperTick (x : PowerSample) (s : State) : Out :=
  if s.boot.power then
    .next (showPwrState (capTick (ghostTick (paceTick (reserveTick (braceTick (measure s x))))) x.mean10.toNat))
  else .next s

/-- The release level of R491 in W; none where nothing is learned. -/
def releaseLevel (s : State) : Option Nat :=
  let p := match s.pwr.ival with | some i => i.1 | none => 0
  (estNj s p (freqN s)).map fun e => e * getF s (modReg oClkFreqStatus) 47 32 / 1000 * 2 / 3

/-- RAMP_RELEASE (R491): issue resumes when the draw reaches the release level, or ramp_max_ms after the restart; cores that
an abort bars from issue fault (R350, R536). -/
def execRampRelease (s : State) : Out :=
  match s.pwr.ramp with
  | some t =>
    let due := decide (t + 1000000 * getF s (modReg oPwrShapeCtl) 15 0 ≤ s.ns)
    let met := match releaseLevel s with | some l => decide (l ≤ getF s (modReg oPwrInput) 31 16) | none => false
    if s.clk.kind = 3 ∧ s.clk.causes = [] ∧ (due || met) = true then
      let a := s.clk.aborting
      let s := restartClocks (setPace { s with pwr := { s.pwr with ramp := none }, clk := { s.clk with aborting := none } } 4)
      let s := match a with
        | some .slip => abortCores s .slipMissed
        | some _ => abortCores s .slackExhausted
        | none => s
      .next (updateGoesOn (showPwrState s))
    else .next s
  | none => .next s

/-- PWR_GOV_REQ (R349, R496): writing req makes a governor request. -/
def govReqWrite (s : State) (v : W64) : State := if bitOf v.toNat 0 then { s with clk := { s.clk with govReq := true } } else s

/-- PWR_GOV_REQ: a write by a master. -/
def execPwrGovReq (m : Master) (v : W64) (s : State) : Out :=
  .next (writeAccess m (modReg oPwrGovReq) s fun s => (.ok, (govReqWrite s v)))

/-! ## Thermal limits (R504) -/

/-- The hottest of the fields' temperatures, and its field. -/
def hottest (temps : List (BitVec 16)) : Int × Nat :=
  (List.range 64).foldl (fun b f => let t := s16 (temps.getD f 0#16); if b.1 < t then (t, f) else b) (s16 (temps.getD 0 0#16), 0)

/-- THERMAL_LIMIT of one field: event on reaching limit_c, fence after 100 ms. -/
def limitField (s : State) (f : Nat) (temp : BitVec 16) : State :=
  let now := s.ns
  if fieldFenced s f ∨ s16 temp < 100 * getF s (modReg oPwrThermCtl) 15 8 then
    { s with pwr := { s.pwr with hot := s.pwr.hot.filter (·.1 ≠ f) } }
  else match s.pwr.hot.find? (·.1 == f) with
    | some (_, t) => if t + 100000000 ≤ now then fenceField s f 5 else s
    | none =>
      let s := { s with pwr := { s.pwr with hot := s.pwr.hot ++ [(f, now)] } }
      let s := addF (setF s (modReg oPwrThermStatus) 1 1 1) (modReg oPwrEvents) 31 16 1
      raiseAlert (queueFault s f (fieldRec s f 2 .thermalLimit false false temp.toNat)) 4

/-- THERMAL_LOOP (R504): each 1 ms firmware reads the temperatures of the 64 fields and of the coolant. -/
def execThermalLoop (temps : List (BitVec 16)) (tIn tOut : BitVec 16) (s : State) : Out :=
  if temps.length ≠ 64 then .fault .illFormed
  else if !runtimeOn s then .next s
  else
    let s := (List.range 64).foldl (fun s f => setF s (fieldReg f oFldPwrStatus) 63 48 (temps.getD f 0#16).toNat) s
    let (t, f) := hottest temps
    let c := modReg oPwrThermCtl
    let r := modReg oPwrThermStatus
    let throttle := 100 * getF s c 7 0
    let hot := decide ((throttle : Int) ≤ t)
    let s := setF (setF (setF s r 63 48 (patternOf 16 t)) r 45 40 f) r 0 0 hot.toNat
    let steps := if t ≤ (throttle : Int) - 300 then 0 else s.pwr.steps
    let s := { s with pwr := { s.pwr with tIn := s16 tIn, tOut := s16 tOut, steps := steps, seenT := true } }
    let s := if hot && fixedMode s then { s with clk := { s.clk with govReq := true } } else s
    let s := (List.range 64).foldl (fun s f => limitField s f (temps.getD f 0#16)) s
    let s := { s with pwr := { s.pwr with limit := s.pwr.hot.any fun p => !fieldFenced s p.1 } }
    .next (if getF s c 47 32 < (s16 tOut).toNat then raiseAlert s 7 else s)

/-! ## Energy accounting (R497, R498) -/

/-- Events of a class for a task since the last microsecond. -/
def actDelta (x : FieldSt) (cls task : Nat) : Nat := smGet 0 (8 * cls + task) x.acts - smGet 0 (8 * cls + task) x.actSeen

/-- Energy of a task's (4: shared) events, in 1/36,864,000 nJ. -/
def taskEnergy (s : State) (f : Nat) (x : FieldSt) (m task : Nat) : Nat :=
  let coef (c : Nat) : Nat := getF s (fieldReg f (oFldActCoef + 8 * c)) 15 0
  m * m * ((List.range 34).map fun c => actDelta x c task * coef c).sum +
    2304 * ((List.range 8).map fun c => actDelta x (34 + c) task * coef (34 + c)).sum

/-- Parts of a nJ: coefficients are in 1/16 pJ, and m² counts against 2,304. -/
def partsPerNj : Nat := 36864000

/-- Adds energy to a counter in nJ, keeping what is left of a nJ. -/
def addEnergy (s : State) (f k off e : Nat) : State :=
  let t := smGet 0 k (getField s f).eFrac + e
  modField (addF s (fieldReg f off) 63 0 (t / partsPerNj)) f fun x => { x with eFrac := smPut 0 k (t % partsPerNj) x.eFrac }

/-- Synthesizer multiplier in effect (R336). -/
def multM (s : State) : Nat := if getB s (modReg oClkFreqStatus) 16 then 45 else 24 + 2 * freqN s

/-- ENERGY_TICK (R497, R498): a microsecond's energy of a field, by task and shared. -/
def execEnergyTick (f : FieldId) (s : State) : Out :=
  let t := s16 (BitVec.ofNat 16 (getF s (fieldReg f oFldPwrStatus) 63 48))
  let s := if t < 4000 then s else actShared s f (34 + min 7 ((t.toNat - 4000) / 1000)) 1
  let x := getField s f
  let m := multM s
  let e (k : Nat) : Nat := taskEnergy s f x m k
  let s := (List.range 4).foldl (fun s k => addEnergy s f k (oFldEnergyTask + 8 * k) (e k)) s
  let s := addEnergy s f 4 oFldEnergyShared (e 4)
  let s := addEnergy s f 5 oFldEnergy (((List.range 5).map e).sum)
  .next (modField s f fun y => { y with actSeen := x.acts })

/-- ENERGY_SCALE (R498): every 100 ms the measured input energy against the sum of the field energies plus 4 %. With no
field energy the scale stays. -/
def execEnergyScale (s : State) : Out :=
  if !runtimeOn s then .next s
  else
    let inMj := (getReg s (modReg oPwrEnergyIn)).toNat
    let sum := ((List.range 64).map fun f => (getReg s (fieldReg f oFldEnergy)).toNat).sum
    let dIn := inMj - s.pwr.scaleFrom.1
    let dSum := sum - s.pwr.scaleFrom.2
    let k := if dSum = 0 then s.pwr.scale else dIn * 1000000 * 100 * 65536 / (dSum * 104)
    .next { s with pwr := { s.pwr with scale := k, scaleFrom := (inMj, sum) } }

/-- GAUGE_CALIBRATION (R502): at a full charge firmware sets C_cal from the charge, in µC, that entered between 53.0 V and
54.0 V, and the gauge from it. -/
def execGaugeCalibration (charge : BitVec 16) (s : State) : Out :=
  if !runtimeOn s then .next s
  else
    let r := modReg oPwrHoldupCal
    let s := addF (setF s r 31 16 charge.toNat) r 15 0 1
    let e := capEnergy (100 * charge.toNat) (storeV s)
    let off := (s.pwr.gauge - e).natAbs
    let s := if 5000000 < off then addF s (modReg oPwrEvents) 15 0 1 else s
    .next (showHoldup { s with pwr := { s.pwr with gauge := e } })

/-! ## SMBus (R474) -/

/-- SMBALERT# is asserted. -/
def smbAlert (s : State) : Bool := s.smb.alert &&& (0xFFFF ^^^ s.smb.mask) != 0

/-- An SMBus read: the value little-endian; a transaction without a valid PEC is NACKed. -/
def smbRead (pec : Bool) (n v : Nat) (s : State) : Out :=
  if !s.boot.power then .next s
  else if pec then .next (answer s .ok (natLe n v)) else .next (answer s .nack [])

/-- IDENT. -/
def execIdent (pec : Bool) (s : State) : Out :=
  let id := (getReg s (modReg oModIdent)).toNat
  smbRead pec 12 (bitsOf id 63 48 + bitsOf id 47 44 * 2 ^ 16 + bitsOf id 43 40 * 2 ^ 24 + (getReg s (modReg oLnkSelfId)).toNat * 2 ^ 32) s

/-- A program is running: an instance is loaded, the start pulse has come and some core has left RESET. -/
def programRuns (s : State) : Bool := s.boot.prog.isSome && s.clk.started && (smKeys s.cores).any fun c => !coreFenced s c && (getCore s c).mode != .reset

/-- STATE. -/
def execState (pec : Bool) (s : State) : Out :=
  let fenced := getReg s (modReg oModFieldFenced) != 0#64
  smbRead pec 1 ((getF s (modReg oCarBootStatus) 2 0 == 5).toNat + 2 * (programRuns s).toNat + 4 * s.pwr.brace.isSome.toNat +
    8 * getF s (modReg oPwrThermStatus) 0 0 + 16 * fenced.toNat) s

/-- VIN. -/
def execVin (pec : Bool) (s : State) : Out := smbRead pec 2 s.smb.vin s
/-- IIN. -/
def execIin (pec : Bool) (s : State) : Out := smbRead pec 2 s.smb.iin s
/-- PIN. -/
def execPin (pec : Bool) (s : State) : Out := smbRead pec 2 s.smb.pin s
/-- PCAP. -/
def execPcap (pec : Bool) (s : State) : Out := smbRead pec 2 s.smb.pcap s
/-- ENERGY. -/
def execEnergy (pec : Bool) (s : State) : Out := smbRead pec 8 s.smb.energy s
/-- HOLDUP. -/
def execHoldup (pec : Bool) (s : State) : Out := smbRead pec 2 s.smb.holdup s
/-- T_IN. -/
def execTIn (pec : Bool) (s : State) : Out := smbRead pec 2 s.smb.tIn s
/-- T_OUT. -/
def execTOut (pec : Bool) (s : State) : Out := smbRead pec 2 s.smb.tOut s
/-- T_MAX. -/
def execTMax (pec : Bool) (s : State) : Out := smbRead pec 2 s.smb.tMax s
/-- ALERT_STATUS. -/
def execAlertStatus (pec : Bool) (s : State) : Out := smbRead pec 2 s.smb.alert s

/-- ALERT_CLEAR: a 1 clears the alert bit. -/
def execAlertClear (pec : Bool) (v : BitVec 16) (s : State) : Out :=
  if !s.boot.power then .next s
  else if pec then .next (answer { s with smb := { s.smb with alert := s.smb.alert &&& (0xFFFF ^^^ v.toNat) } } .ok [])
  else .next (answer s .nack [])

/-- ALERT_MASK: read, or written with a value. -/
def execAlertMask (pec : Bool) (v : Option (BitVec 16)) (s : State) : Out :=
  match v with
  | none => smbRead pec 2 s.smb.mask s
  | some w =>
    if !s.boot.power then .next s
    else if pec then .next (answer { s with smb := { s.smb with mask := w.toNat } } .ok []) else .next (answer s .nack [])

/-- The values of the port as they stand now; what is not yet measured reads as all ones. -/
def smbValues (s : State) : SmbSt :=
  let i := modReg oPwrInput
  let p (v : Nat) : Nat := if s.pwr.seenP then v else 0xFFFF
  let t (v : Nat) : Nat := if s.pwr.seenT then v else 0xFFFF
  { s.smb with vin := p (getF s i 63 48), iin := p (getF s i 47 32), pin := p (getF s i 31 16)
               pcap := getF s (modReg oPwrCapCtl) 14 0, holdup := p (getF s (modReg oPwrHoldup) 47 32)
               energy := if s.pwr.seenP then (getReg s (modReg oPwrEnergyIn)).toNat / 1000 else 0xFFFFFFFFFFFFFFFF
               tIn := t (patternOf 16 s.pwr.tIn), tOut := t (patternOf 16 s.pwr.tOut), tMax := t (getF s (modReg oPwrThermStatus) 63 48) }

/-- SMBUS_REFRESH (R474): Carnelian refreshes the values, from stage 1 on. -/
def execSmbusRefresh (s : State) : Out :=
  let st := getF s (modReg oCarBootStatus) 2 0
  if !s.boot.power || st == 0 || st == 7 then .next s else .next { s with smb := smbValues s }

end Sys2Proof.Machine
end

