-- ==== Sys2Proof/Machine/Regs.lean ====
section
/-! DEFINITION. Machine/Regs.lean: what a register reads as, which values it refuses, and what a plain write does, by its
access codes and active-only fields (R12, R15, R32, R65, R68, R83, R106, R185, R218, R258, R274, R278, R280, R292, R335,
R365, R382, R383, R405, R410, R431, R456, R462, R479, R508, R534, R556, R583). -/
namespace Sys2Proof.Machine
open Sys2Proof

/-- Index of an offset in an array of registers. -/
def inArr (o base stride n : Nat) : Option Nat :=
  if base ≤ o ∧ o < base + stride * n ∧ (o - base) % stride = 0 then some ((o - base) / stride) else none

/-! ## Reading (R15, R551) -/

/-- A bit field in its place. -/
def put (lo v : Nat) : Nat := v * 2 ^ lo

/-- Registers of a core that show its state (R82, R109, R184, R307). -/
def readCoreReg (s : State) (c o : Nat) (v : Nat) : Nat :=
  let x := getCore s c
  let t := curTask x
  if o = oCoreState then
    put 23 (x.waitSince.isSome || x.sbHold).toNat + put 20 (effMode s c) + put 16 x.task + t.pc % 256
  else if o = oCoreStep then (coreStep s c).toNat
  else if o = oCoreQueueStatus then
    put 12 (queueHeld x s.cycle .send) + put 8 (queueHeld x s.cycle .move) + put 4 (queueHeld x s.cycle .vector) + queueHeld x s.cycle .matrix
  else if o = oCoreRingStatus then
    bitsOf v 63 32 * 2 ^ 32 + put 16 x.outst + put 10 (provisionals x).length +
      put 5 (if ringEn s c x.task then ringSize s c x.task - ringUsed x s.cycle else 0) + nextRingSlot s c x.task % 16
  else if o = oCoreFetchStatus then put 8 x.fetchCause + t.fpc % 256
  else if o = oCoreTsCombine then v / 16 * 16 + x.comb.length
  else if o = oCoreMxStatus then v / 2 ^ 24 * 2 ^ 24 + put 16 x.ramp + x.idle
  else if o = oCoreMeshStatus then
    let pend := s.shadow.any fun p => (inArr p.1 (coreReg c oCoreSlot) 8 64).isSome
    let q (i : Nat) : Nat := (x.aq.getD i []).length
    put 63 pend.toNat + put 48 x.sendBuf.length + put 25 (x.lanes.getD 1 none).isSome.toNat + put 24 (x.lanes.getD 0 none).isSome.toNat +
      put 18 (q 3) + put 12 (q 2) + put 6 (q 1) + q 0
  else v

/-- State of a steward as R221 shows it. -/
def stewState (s : State) (k : Nat) : Nat :=
  if cluFenced s k then 6
  else if s.clk.kind ≠ 0 then 5
  else match (getClu s k).mode with
    | .reset => 0 | .run => 1 | .waitdp => 2 | .halted => 3 | .faulted => 4

/-- Do the registers show the core as arrived? They do so from the cycle after the arrival (R232). A RELEASE issued in cycle t
clears the bit in cycle t + 1, and its redirect comes in cycle t + 14, so the bit shows until the end of cycle t + 1 (R236; as
R232 has an arrival show from the cycle after it, DEDUCED, log 54). -/
def arrivedShown (s : State) (c : Nat) : Bool :=
  let x := getCore s c
  (arrived s c && x.arrAt.elim true fun a => decide (a < s.cycle)) || (!coreFenced s c && x.mode == .held && (x.redirect.elim false fun r => decide (s.cycle + 13 ≤ r.2)))

/-- Registers of a cluster that show its state (R247, R332). -/
def readCluReg (s : State) (k o : Nat) (v : Nat) : Nat :=
  let here := cluCores k |>.filter (arrivedShown s)
  if o = oCluState then put 16 (getClu s k).pc + put 8 here.length + put 4 (bitsOf v 4 4) + stewState s k
  else if o = oCluArrived then maskOf (here.map localOf)
  else if o = oCluMemStatus then put 16 (portTxns s k).length + ((portTxns s k).map txnBeats).sum
  else v

/-- Lines with an arrival held in a field. -/
def fieldHeld (s : State) (f : Nat) : Nat :=
  maskOf ((List.range 8).filter fun n => (smKeys s.cores).any fun c => fieldOfCore c == f && getB s (garReg c n) 10)

/-- Registers of a field that show its state (R273, R333, R507, R555). -/
def readFldReg (s : State) (f o : Nat) (v : Nat) : Nat :=
  let x := getField s f
  if o = oGwStatus then
    bitsOf v 44 44 * 2 ^ 44 + put 16 (min 4095 (x.txns.filter fun t => t.stage == .input).length) + (x.txns.filter inTracker).length
  else if o = oGarFldStatus then v / 256 * 256 + fieldHeld s f
  else if o = oFldFaultStatus then v / 128 * 128 + (x.faultQ.filter fun q => !q.cont).length
  else match inArr o oFldActCount 8 64 with
    | some c => ((List.range 5).map fun t => smGet 0 (8 * c + t) x.acts).sum
    | none => v

/-- Qualification time in ms, at most 12 bits. -/
def qualMs (s : State) : Option Nat → Nat
  | some t => min 4095 ((s.ns - t) / 1000000)
  | none => 0

/-- Registers of the module that show its state (R274, R364, R533). -/
def readModReg (s : State) (o : Nat) (v : Nat) : Nat :=
  if o = oClkRefStatus then v % 2 ^ 32 + put 32 (qualMs s (refQual s (getF s (modReg oClkRefCtl) 0 0)))
  else if o = oQtzStatus then
    let src := qtzSrc s
    let near := decide ((signedOf 32 (bitsOf v 63 32)).natAbs ≤ 20)
    let locked := if src = 1 then near else if src = 2 then s.clk.aeltoQual.isSome else false
    let better := match betterSrc s with | some i => qualMs s (srcQual s i) | none => 0
    v / 2 ^ 16 * 2 ^ 16 + put 4 better + v % 16 / 2 * 2 + locked.toNat
  else if o = oHstBootStatus then
    let b := modReg oCarBootStatus
    put 48 (getF s b 63 48) + getF s b 2 0
  else if o = oModFaultSeq then v / 2 ^ 32 * 2 ^ 32 + (s.boot.flog.filter (·.unreported)).length
  else match inArr o oGarLineCtl 8 8 with
    | some n => v % 1024 + put 10 (garScope s n)
    | none => v

/-- Bits of a register that a read returns: every field but the write-only and the reserved ones (R12, R15). -/
def readMask (a : Nat) : Nat := match regDescOf a with
  | some d => fieldMask d fun f => f.acc != .wo && f.acc != .rsv
  | none => 0

/-- A value without what its register reserves, which a write ignores (R12); the fields of CORE_CHANc go by the role
(R307). -/
def tidy (a : Nat) (v : W64) : W64 :=
  let v := v &&& BitVec.ofNat 64 (match regDescOf a with | some d => fieldMask d fun f => f.acc != .rsv | none => 0)
  match decodeAddr a with
  | some (.core _ o) => if (inArr o (0x18000 + oCoreChan) 8 64).isSome && bitOf v.toNat 63 then v &&& ~~~(0x3FFFFFFF#64) else v
  | _ => v

/-- What a register reads as; reserved fields, and an offset that no register covers, read as zero (R12, R15, R578). -/
def readReg (s : State) (a : Nat) : W64 :=
  let v := (getReg s a).toNat
  let r := match decodeAddr a with
    | some (.core c o) => if 0x18000 ≤ o then readCoreReg s c (o - 0x18000) v else v
    | some (.cluster k o) => readCluReg s k o v
    | some (.field f o) => readFldReg s f o v
    | some (.module o) => readModReg s o v
    | _ => v
  BitVec.ofNat 64 r &&& BitVec.ofNat 64 (readMask a)

/-! ## Active-only fields (R15, R68, R272, R274) -/

/-- The core's stores and active-only registers accept writes (R66). -/
def coreOpen (s : State) (c : Nat) : Bool := [0, 3, 4, 5].contains (effMode s c)

/-- The steward's memory and active-only registers accept writes (R223, R272). -/
def stewOpen (s : State) (k : Nat) : Bool := [0, 3, 4].contains (stewState s k)

/-- Cores of a field that have left RESET. -/
def fieldInReset (s : State) (f : Nat) : Bool :=
  (smKeys s.cores).all fun c => fieldOfCore c != f || (getCore s c).mode == .reset

/-- Some core is in RUN, DRAIN or HUSH (R274). -/
def anyRunning (s : State) : Bool := s.clk.kind != 0 || (smKeys s.cores).any fun c => [1, 2].contains (effMode s c)

/-- The block of a register does not run: its active-only fields accept writes. -/
def activeOpen (s : State) (a : Nat) : Bool :=
  match decodeAddr a with
  | some (.core c _) => coreOpen s c
  | some (.cluster k _) => stewOpen s k
  | some (.field f o) =>
    if o = oFldTraceBuf then !getB s (fieldReg f oFldTraceCtl) 63
    else if o = oFldTwinBuf then allReset s
    else fieldInReset s f && s.clk.kind == 0
  | some (.module o) =>
    if o = oGarRealign ∨ (oGarFbexpG ≤ o ∧ o < oGarFbexpG + 0x400) then !anyRunning s else allReset s
  | _ => allReset s

/-- Bits of the active-only fields. -/
def activeMask (a : Nat) : Nat := match regDescOf a with
  | some d => fieldMask d (·.active)
  | none => 0

/-- A write would change an active-only field while its block runs. -/
def activeHit (s : State) (a : Nat) (v : W64) : Bool :=
  !activeOpen s a && ((v ^^^ tidy a (getReg s a)) &&& BitVec.ofNat 64 (activeMask a)) != 0#64

/-! ## Refused values -/

/-- Parts of a row in a format, and elements that a descriptor can name (R188, R189). -/
def fmtParts : Nat → Nat × Nat
  | 0 | 1 | 2 | 3 | 4 => (2, 32)
  | 5 => (4, 64)
  | _ => (1, 16)

/-- A CORE_VDESCn value is refused (R218). The part is held to R189's range in tile-store descriptors, which alone use it; R218
does not say whether another descriptor's is (DESIGN CHOICE, log 126). -/
def badVdesc (v : W64) : Bool :=
  let d := vdescOf v
  let p := fmtParts d.fmt
  d.kind == 3 || decide (12 ≤ d.fmt) || (d.kind == 0 && !([8, 9, 10].contains d.fmt)) || (d.kind == 1 && d.fmt != 8) ||
    (if d.kind = 2 then decide (p.1 ≤ d.part) || decide (p.2 ≤ d.elem) else decide (16 ≤ d.elem) || decide (63 < d.base))

/-- Does a core have a mesh neighbour on a side: 0 north to 3 west? -/
def hasSide (c side : Nat) : Bool := (neighbour c side).isSome

/-- A CORE_SLOTn value is refused (R278). -/
def badSlot (c : Nat) (v : Nat) : Bool :=
  let dest (i : Nat) : Nat := bitsOf v (3 * i + 2) (3 * i)
  let ins := List.range 5
  (ins.any fun i => decide (6 ≤ dest i)) ||
    (ins.any fun i => ins.any fun j => decide (i < j) && decide (1 ≤ dest i) && decide (dest i ≤ 4) && dest i == dest j) ||
    ((List.range 4).any fun i => dest i == i + 1) || dest 4 == 5 ||
    (ins.any fun i => dest i != 0 && ((decide (i < 4) && !hasSide c i) || (decide (dest i ≤ 4) && !hasSide c (dest i - 1))))

/-- Rows of a send channel that are in the send buffer. -/
def inSendBuf (s : State) (c ch : Nat) : Bool := (getCore s c).sendBuf.any fun r => r.beat.sendChan == ch

/-- Rows for a receive channel that are in an arrival queue or held by a lane. -/
def inArrival (s : State) (c ch : Nat) : Bool :=
  let x := getCore s c
  (x.aq.flatten.any fun r => r.beat.dstChan == ch) || x.lanes.any fun l => match l with | some l => l.chan == ch | none => false

/-- A CORE_CHANc value is refused (R292). -/
def badChan (s : State) (c ch : Nat) (v : Nat) : Bool :=
  let role := bitsOf v 63 62
  let old := chanRole s c ch
  let changes := decide (v / 2 ^ 29 ≠ (getReg s (chanReg c ch)).toNat / 2 ^ 29)
  let size := bitsOf v 49 41 + 1
  (changes && ((old == 1 && inSendBuf s c ch) || (decide (2 ≤ old) && inArrival s c ch))) ||
    (match role with
     | 1 => !hasSide c (bitsOf v 61 60) || bitsOf v 48 29 == c
     | 2 => decide (1536 < bitsOf v 40 30 + size) || bitsOf v 56 50 != 0
     | 3 => decide (1536 < bitsOf v 40 30 + size) || decide (32 < size) || (bitOf v 56 && size % 3 != 0)
     | _ => false)

/-- A ring passes its task's bound. -/
def ringPasses (ring tsize : Nat) : Bool := bitOf ring 19 && decide (tsize < 32 * (bitsOf ring 5 0 + bitsOf ring 13 10 + 1))

/-- Values of core registers that are refused. -/
def badCore (s : State) (c o : Nat) (v : Nat) : Bool :=
  match inArr o oCoreTaskImem 8 4, inArr o oCoreHorizon 8 8, inArr o oCoreOvl 8 8, inArr o oCoreAdr 8 32 with
  | some _, _, _, _ => decide (256 < bitsOf v 7 0 + bitsOf v 23 16 + 1)
  | _, some _, _, _ => bitsOf v 31 0 == 0
  | _, _, some _, _ => v % 32 != 0
  | _, _, _, some _ => v % 64 != 0
  | _, _, _, _ =>
    match inArr o oCoreRing 8 4, inArr o oCoreTaskTs 8 4, inArr o oCoreVdesc 8 16, inArr o oCoreChan 8 64, inArr o oCoreSlot 8 64 with
    | some t, _, _, _, _ => ringPasses v (taskTsize s c t)
    | _, some t, _, _, _ =>
      let base := bitsOf v 10 0
      let size := bitsOf v 26 16
      base % 32 != 0 || size % 32 != 0 || decide (1536 < base + size) || ringPasses (getReg s (coreReg c (oCoreRing + 8 * t))).toNat size
    | _, _, some _, _, _ => badVdesc (BitVec.ofNat 64 v)
    | _, _, _, some ch, _ => badChan s c ch v
    | _, _, _, _, some _ => badSlot c v
    | _, _, _, _, _ =>
      o == oCoreMxStatus && ((decide (8 ≤ bitsOf v 31 28) && decide (bitsOf v 31 28 ≤ 14)) || (decide (8 ≤ bitsOf v 27 24) && decide (bitsOf v 27 24 ≤ 14)))

/-- Bits of ids that a class has no master for (R462). -/
def reservedIds : Nat → Nat
  | 1 => 4 | 2 => 5 | 3 => 1 | 6 => 1 | 4 => 32 | _ => 40

/-- A permission value with an id outside its class. -/
def badPerm (cls v : Nat) : Bool := bitsOf v 39 (reservedIds cls) != 0 && decide (reservedIds cls < 40)

/-- Class of an access-table offset, and whether it is a permission. -/
def tableSlot (o base : Nat) : Option (Nat × Bool) :=
  if base ≤ o ∧ o < base + 0x600 then some ((o - base) / 0x100 + 1, decide (o % 16 = 8)) else none

/-- Values of field registers that are refused. -/
def badField (o v : Nat) : Bool :=
  match inArr o oFldRepairRow 8 16, tableSlot o oSvcGwwin, tableSlot o oSvcCorewin with
  | some _, _, _ => (List.range 8).any fun i => decide (128 < bitsOf v (8 * i + 7) (8 * i))
  | _, some (cls, true), _ | _, _, some (cls, true) => badPerm cls v
  | _, some (_, false), _ => decide (bitsOf v 21 0 < bitsOf v 43 22)
  | _, _, some (_, false) => decide (bitsOf v 23 10 < bitsOf v 37 24) || decide (bitsOf v 4 0 < bitsOf v 9 5)
  | _, _, _ =>
    if o = oGwClassCtl then decide (64 < bitsOf v 63 56) || decide (64 < bitsOf v 55 48) || decide (2048 < bitsOf v 43 32) || decide (2048 < bitsOf v 27 16)
    else if o = oGwProbeBase then bitsOf v 5 0 != 0
    else if o = oFldTwinBuf then bitsOf v 5 0 != 0
    else if o = oFldDroopCtl then decide (bitsOf v 7 0 < 10) || decide (100 < bitsOf v 7 0)
    else if o = oFldTraceCtl then bitOf v 0 || bitOf v 14 || bitOf v 15
    else if o = oFldTraceFilter then decide (bitsOf v 49 36 < bitsOf v 63 50)
    else if o = oFldTraceBuf then
      bitsOf v 15 0 != 0 || bitsOf v 63 48 == 0 || decide (0x400000000 < bitsOf v 33 0 + bitsOf v 63 48 * 0x10000)
    else false

/-- An RDMA window's range and size as they would be. -/
def badRwin (s : State) (n which v : Nat) : Bool :=
  let base := if which = 0 then bitsOf v 47 0 else (getReg s (modReg (oSvcRwinBase + 0x20 * n))).toNat
  let size := if which = 1 then bitsOf v 34 0 else (getReg s (modReg (oSvcRwinSize + 0x20 * n))).toNat
  if which = 2 then bitOf v 63 && !(s.host.wins.any fun w => memBase w.field + w.lo == base && w.size == size && w.group == bitsOf v 60 56)
  else (if which = 0 then base else size) % 0x10000 != 0 || decide (0x400000000 < base % 0x400000000 + size)

/-- A queue pair of a group is set up. -/
def groupBusy (s : State) (g : Nat) : Bool := s.host.qps.any fun q => q.group == g

/-- The loaded image lacks the exact-mode mark. -/
def lacksExact (s : State) : Bool := match s.boot.prog with | some p => !p.exact | none => false

/-- Values of the power registers that are refused (R508). -/
def badPower (o v : Nat) : Bool :=
  let out (x lo hi : Nat) : Bool := decide (x < lo) || decide (hi < x)
  if o = oPwrCapCtl then out (bitsOf v 14 0) 8000 27000
  else if o = oPwrShapeCtl then out (bitsOf v 63 48) 500 2000 || out (bitsOf v 39 32) 0 90 || out (bitsOf v 15 0) 1 100
  else if o = oPwrBraceCtl then out (bitsOf v 7 0) 1 150
  else if o = oPwrThermCtl then out (bitsOf v 15 8) 80 110 || out (bitsOf v 7 0) 70 105 || decide (bitsOf v 15 8 ≤ bitsOf v 7 0)
  else false

/-- Values of module registers that are refused. -/
def badModule (s : State) (o v : Nat) : Bool :=
  match tableSlot o oSvcRegwin, inArr o oSvcQg 8 32, inArr o oCarWdogCtl 16 5 with
  | some (cls, true), _, _ => badPerm cls v
  | some (_, false), _, _ => decide (bitsOf v 31 0 < bitsOf v 63 32)
  | _, some g, _ => groupBusy s g && (tidy (modReg o) (getReg s (modReg o))).toNat != v
  | _, _, some _ => (getB s (modReg o) 63 && !bitOf v 63) || decide (bitsOf v 15 0 < 10) || decide (10000 < bitsOf v 15 0)
  | _, _, _ =>
    if oSvcRwinBase ≤ o ∧ o < oSvcRwinBase + 0x2000 ∧ o % 0x20 / 8 < 3 then badRwin s ((o - oSvcRwinBase) / 0x20) (o % 0x20 / 8) v
    else if o = oGarRealign then bitsOf v 63 32 == 0
    else if o = oClkGovCtl then bitsOf v 27 24 == 0 || bitsOf v 3 0 == 0 || decide (4 < bitsOf v 3 0)
    else if o = oLnkSlipCtl then decide (bitsOf v 15 8 < 2)
    else if o = oLnkSpareSub then (List.range 4).any fun i => bitOf v (16 * i + 15) && decide (36 ≤ bitsOf v (16 * i + 5) (16 * i))
    else if o = oLnkQtzSrc then decide (39 < bitsOf v 5 0)
    else if o = oLnkStepCtl then bitsOf v 23 16 == 0 || decide (64 < bitsOf v 23 16)
    else if o = oLnkStepPeriod then decide (bitsOf v 63 48 < 300)
    else if o = oQtz1588Ctl then bitsOf v 11 10 == 3
    else if o = oLnkDomainShape then
      decide (23 < bitsOf v 14 10) || decide (24576 < (bitsOf v 4 0 + 1) * (bitsOf v 9 5 + 1) * (bitsOf v 14 10 + 1))
    else if o = oModTwinCtl then (bitsOf v 3 2 == 3 && bitsOf v 15 12 != 0) || (bitOf v 0 && lacksExact s)
    else if o = oModTwinLimits then decide (16384 < bitsOf v 47 32) || bitsOf v 15 0 == 0
    else badPower o v

/-- A plan entry is refused (R382): `p` is its position. -/
def badPlanEntry (l p e : Nat) : Bool :=
  let kind := bitsOf e 31 30
  let reserve := decide (p % 8 = 7)
  kind == 3 || (kind == 1 && (reserve || bitsOf e 11 6 != l)) || (kind == 2 && !reserve)

/-- Cells of a link channel that are in the link port. -/
def inPort (s : State) (l q : Nat) : Bool :=
  let x := getLink s l
  (x.sent.any fun k => k.lch == q) || (x.pre.any fun k => k.lch == q) || (x.held.any fun h => h.lch == q) || !(getLch x q).fwd.isEmpty

/-- Values of link registers that are refused (R382, R383, R410). -/
def badLink (s : State) (l o v : Nat) : Bool :=
  match inArr o oLnkPlan 8 7680, inArr o oLnkChan 8 64 with
  | some m, _ =>
    let p := 2 * m % 1920
    badPlanEntry l p (v % 2 ^ 32) || badPlanEntry l (p + 1) (v / 2 ^ 32)
  | _, some q =>
    (decide ((getReg s (linkReg l o)).toNat / 16 ≠ v / 16) && inPort s l q) ||
      (bitOf v 63 && decide (47 < bitsOf v 55 50 + bitsOf v 49 46)) || (bitOf v 29 && bitOf v 28) || (bitOf v 63 && bitOf v 62) ||
      (q == 63 && getB s (modReg oLnkStepCtl) 0 && (bitOf v 63 || bitOf v 62 || bitOf v 29 || bitOf v 28))
  | _, _ => false

/-- A register refuses a value. -/
def badValue (s : State) (a : Nat) (v : W64) : Bool :=
  match decodeAddr a with
  | some (.core c o) => decide (0x18000 ≤ o) && badCore s c (o - 0x18000) v.toNat
  | some (.cluster _ o) => (inArr o oCluHorizon 8 8).isSome && bitsOf v.toNat 31 0 == 0
  | some (.field _ o) => badField o v.toNat
  | some (.module o) => badModule s o v.toNat
  | some (.link l o) => decide (l < 40) && badLink s l o v.toNat
  | _ => false

/-- A register refuses a write: CONFIG_REJECTED (R15). -/
def rejects (s : State) (a : Nat) (v : W64) : Bool := activeHit s a v || badValue s a v

/-- A refusal is counted in the core or the cluster (R82, R247). -/
def countRejected (s : State) (a : Nat) : State :=
  match decodeAddr a with
  | some (.core c _) => addF s (coreReg c oCoreRefusals) 63 32 1
  | some (.cluster k _) => addF s (cluReg k oCluRefusals) 63 32 1
  | _ => s

/-! ## Plain writes (R15, R583) -/

/-- Bits with an access code. -/
def accMask (a : Nat) (c : Acc) : Nat := match regDescOf a with
  | some d => fieldMask d fun f => f.acc == c
  | none => 0

/-- An RWH write takes effect at once: masks and slot tables while the cores they reach are in RESET, QTZ_CTL.direct while
every core is (R258, R280, R361). -/
def atOnce (s : State) (a : Nat) : Bool :=
  match decodeAddr a with
  | some (.core c o) => (inArr o (0x18000 + oCoreSlot) 8 64).isSome && fieldInReset s (fieldOfCore c)
  | some (.cluster k o) => (inArr o oCluGarMask 8 8).isSome && (cluCores k).all fun c => (getCore s c).mode == .reset
  | some (.field f o) => decide (oGarFmask ≤ o) && decide (o < oGarFmask + 0x100) && fieldInReset s f
  | some (.module o) =>
    ((inArr o oGarLineFields 8 8).isSome || o == oQtzCtl) && (smKeys s.cores).all fun c => (getCore s c).mode == .reset || coreFenced s c
  | _ => false

/-- The RWH fields of a write go to the shadow, or take effect at once. -/
def writeRwh (s : State) (a : Nat) (v : W64) : State :=
  let m := rwhMask a
  if m = 0 then s
  else if atOnce s a then { putMasked s a m v with shadow := smErase a s.shadow }
  else
    let k := BitVec.ofNat 64 m
    { s with shadow := smPut (getReg s a) a ((getReg s a &&& ~~~k) ||| (v &&& k)) s.shadow }

/-- The RW and W1C fields of a write. -/
def writeNow (s : State) (a : Nat) (v : W64) : State :=
  let rw := (match fieldTableClass a with | some 1 => 0 | _ => accMask a .rw)
  let s := putMasked s a rw v
  let w := BitVec.ofNat 64 (accMask a .w1c)
  setReg s a (getReg s a &&& ~~~(v &&& w))

/-- What a plain write does besides its fields: CLK_FREQ_CTL is noted (R349), a trace unit starts afresh (R556), a watchdog
is armed (R511). -/
def writeExtra (s : State) (a : Nat) (v : W64) : State :=
  match decodeAddr a with
  | some (.field f o) =>
    if o = oFldTraceCtl ∧ bitOf v.toNat 63 then
      let r := fieldReg f oFldTraceStatus
      setF (setF s r 63 62 0) r 31 0 0
    else s
  | some (.module o) =>
    if o = oClkFreqCtl then { s with clk := { s.clk with freqNew := true } }
    else if o = oQtzCtl then leaveSrc (ptpEnable s)
    else match inArr o oCarWdogCtl 16 5 with
      | some n =>
        if bitOf v.toNat 63 ∧ s.boot.dogs.getD n none = none then
          { s with boot := { s.boot with dogs := s.boot.dogs.set n (some (s.ns + 1000000 * bitsOf v.toNat 15 0)) } }
        else s
      | none => s
  | _ => s

/-- A send entry that a write has changed starts with its cred_m1 + 1 credits (R284). -/
def chanStart (old : W64) (s : State) (a : Nat) : State :=
  match decodeAddr a with
  | some (.core c o) => match inArr o (0x18000 + oCoreChan) 8 64 with
    | some ch => if getReg s a = old ∨ chanRole s c ch ≠ 1 then s else setF s (chStat c ch) 39 34 (getF s a 59 55 + 1)
    | none => s
  | _ => s

/-- A ring whose en goes from 0 to 1 numbers its fills from 0 again (R70). What earlier fills hold stays until it is popped
(DESIGN CHOICE, log 119). -/
def ringStart (old : W64) (s : State) (a : Nat) : State :=
  match decodeAddr a with
  | some (.core c o) => match inArr o (0x18000 + oCoreRing) 8 4 with
    | some t =>
      if !bitOf old.toNat 19 && getB s a 19 then
        modCore s c fun x =>
          { x with tasks := x.tasks.set t { taskAt x t with nextSlot := 0 }
                   snap := x.snap.map fun n => if x.task = t then { n with nextSlot := 0 } else n }
      else s
    | none => s
  | _ => s

/-- A write of CORE_CTRVALn sets the net changes of its four counters to 0 (R271). -/
def netStart (s : State) (a : Nat) : State :=
  match decodeAddr a with
  | some (.core c o) => match inArr o (0x18000 + oCoreCtrval) 8 8 with
    | some n => modCore s c fun x => { x with net := (List.range 32).map fun i => if i / 4 = n then 0 else x.net.getD i 0 }
    | none => s
  | _ => s

/-- What a register's new value does besides, whoever writes it. -/
def afterWrite (old : W64) (s : State) (a : Nat) : State := netStart (ringStart old (chanStart old s a) a) a

/-- A plain write of a register. -/
def plainWrite (s : State) (a : Nat) (v : W64) : State :=
  match regDescOf a with
  | none => s
  | some _ => afterWrite (getReg s a) (writeExtra (writeNow (writeRwh s a v) a v) a v) a

/-- The loader or the boot firmware gives a register a value, at once: reserved fields aside (R12), with nothing left in the
register's shadow (R569). -/
def loadReg (s : State) (a : Nat) (v : W64) : State :=
  afterWrite (getReg s a) { setReg s a (tidy a v) with shadow := smErase a s.shadow } a

end Sys2Proof.Machine
end

