-- ==== Sys2Proof/Machine/Faults.lean ====
section
/-! DEFINITION. Machine/Faults.lean: the way of a fault record from its collector to the log, polls, trace rings, and the energy
log (R498, R537 to R544, R550). -/
namespace Sys2Proof.Machine
open Sys2Proof

/-! ## Firmware's own traffic -/

/-- Firmware writes stacked memory. A fenced field takes nothing, and a part of a poisoned granule changes nothing (R28,
R322). -/
def fwWrite (s : State) (a : Nat) (data : List Byte) : State :=
  (List.range (granulesOf a data.length)).foldl (fun s i =>
    let g := (a / 64 + i) * 64
    let lo := max g a
    let hi := min (g + 64) (a + data.length)
    let b := (data.drop (lo - a)).take (hi - lo)
    if fieldFenced s (g / 0x400000000) then s
    else if hi - lo = 64 then wrBytes (clearPoison s g) lo b
    else if poisoned s g then s else wrBytes s lo b) s

/-- Firmware's requests for a range, of at most 1 KiB each, pass the gateway as class 1 (R324): they are counted, and where
others are there or they are many their admission wait is a free value (DESIGN CHOICE, log 62). In a fenced field each
completes with TARGET_FENCED (R331). -/
def fwTraffic (s : State) (a len : Nat) : State :=
  let f := a / 0x400000000
  let n := if len = 0 then 0 else (a + len - 1) / 1024 - a / 1024 + 1
  if fieldFenced s f then addF s (fieldReg f oGwFenceCount) 63 0 n
  else
    let s := addF s (clsCount f 1) 63 32 n
    if (getField s f).txns.isEmpty ∧ n ≤ 4 then s
    else
      let p := drawFree s
      addF p.2 (clsWait f 1) 63 0 p.1.toNat

/-- Firmware stores bytes in stacked memory. -/
def fwStore (s : State) (a : Nat) (data : List Byte) : State := fwWrite (fwTraffic s a data.length) a data

/-- Firmware reads a range of stacked memory: each poisoned granule in it is counted (R322). -/
def fwRead (s : State) (a len : Nat) : State :=
  let f := a / 0x400000000
  let s := fwTraffic s a len
  if fieldFenced s f then s
  else addF s (fieldReg f oGwEcc) 15 0 ((getField s f).poison.filter fun g => decide (a / 64 ≤ g) && decide (g * 64 < a + len)).length

/-- Some granule of a range is poisoned. -/
def rangePoisoned (s : State) (a len : Nat) : Bool :=
  (getField s (a / 0x400000000)).poison.any fun g => decide (a / 64 ≤ g) && decide (g * 64 < a + len)

/-! ## The energy log (R498) -/

/-- Energies so far in nJ, summed over the fields: tasks 0 to 3, shared. -/
def energySums (s : State) : List Nat :=
  let sum (o : Nat) : Nat := ((List.range 64).map fun f => (getReg s (fieldReg f o)).toNat).sum
  ((List.range 4).map fun t => sum (oFldEnergyTask + 8 * t)) ++ [sum oFldEnergyShared]

/-- ENERGY_LOG (R498): firmware appends the record of the oldest step not yet logged. How it finds the dominant phase is
left open: a free value. -/
def execEnergyLog (s : State) : Out :=
  match s.pwr.due with
  | [] => .next s
  | d :: rest =>
    if !runtimeOn s then .next s
    else
      let now := energySums s ++ [(getReg s (modReg oPwrEnergyIn)).toNat, d.at_]
      let was := s.pwr.logFrom
      let df (i : Nat) : Nat := now.getD i 0 - was.getD i 0
      let (v, s) := drawFree s
      let body := [d.step, v.toNat % 256, df 6] ++ ((List.range 5).map fun i => df i * s.pwr.scale / 65536 / 1000) ++ [df 5 * 1000, s.pwr.scale]
      let r := modReg oPwrElog
      let n := getF s r 63 48
      let s := fwStore s (getF s r 47 0 + 64 * n) (natLe 64 (Config.energyRecord body).toNat)
      .next { addF s r 63 48 1 with pwr := { s.pwr with due := rest, logFrom := now } }

/-! ## The fault log (R542) -/

/-- Records that the flash log holds: 61.5 MiB in records of 4 KiB (R515). -/
def flashRing : Nat := 15744

/-- Appends a record to the flash log, a ring. -/
def flashAppend (s : State) (seq : Nat) (mark : Bool) (crash : Option Nat) (b : List Byte) : State :=
  let l := s.boot.flog ++ [⟨s.boot.flogN % flashRing, seq, mark, crash, b⟩]
  { s with boot := { s.boot with flog := l.drop (l.length - flashRing), flogN := s.boot.flogN + 1 } }

/-- Flash offset of the record that comes next. -/
def flashNext (s : State) : Nat := 0x280000 + 0x1000 * (s.boot.flogN % flashRing)

/-- Sequence number of the next record. -/
def nextSeq (s : State) : Nat := getF s (modReg oModFaultSeq) 63 32

/-- Module address of the fault log. -/
def logAddr (s : State) : Nat := getF s (modReg oModFaultLog) 47 0

/-- A record goes to the log, with its sequence number, and to the flash log where R542 says so. -/
def logOne (flash : Bool) (s : State) (r : FaultRec) : State :=
  let n := nextSeq s
  let s := fwStore s (logAddr s + 32 * (n % 65536)) (recBytes r)
  let s := addF s (modReg oModFaultSeq) 63 32 1
  if flash then flashAppend s n true none (recBytes r) else s

/-- Vector 8: at most once per 100 µs, while unread records exist (R542). -/
def notifyFaults (s : State) : State :=
  let due := match s.boot.msi8 with | some t => decide (t + 100000 ≤ s.ns) | none => true
  if due && decide (s.boot.faultsRead < nextSeq s) then
    signalHost { s with boot := { s.boot with msi8 := some s.ns } } 8
  else s

/-- A head and its continuations are logged. -/
def logGroup (s : State) (h : FaultRec) (more : List FaultRec) : State :=
  let c := faultCode h.name
  let flash := h.fatal || h.fence || (decide (6 ≤ c / 4096) && decide (c / 4096 ≤ 9))
  let s := (h :: more).foldl (logOne flash) s
  let r := modReg oModFaultStatus
  let s := if h.fatal then addF s r 31 0 1 else s
  let s := if h.fatal || h.fence then
      setF (if getB s r 63 then s else setF s r 47 32 c) r 63 63 1
    else s
  notifyFaults s

/-- The first group of a queue, and the rest. -/
def headGroup : List FaultRec → Option (FaultRec × List FaultRec × List FaultRec)
  | [] => none
  | h :: l => some (h, l.takeWhile (·.cont), l.dropWhile (·.cont))

/-! ## Collectors (R540, R541) -/

/-- Codes whose repeats from one source are suppressed (R541). -/
def suppressible (r : FaultRec) : Bool :=
  !r.fatal && match r.name with
    | .storeLocked | .configRejected | .accessDenied | .targetFenced | .foreignFree | .doubleFree => true
    | .staleMessage | .deadlineMiss => true
    | .eccUncorrected => r.unit == 3
    | _ => false

/-- A field's collector passes its oldest record, with its continuations, over the fault ring to Carnelian, or suppresses
it. -/
def collect (s : State) (f : Nat) : State :=
  let x := getField s f
  match headGroup x.faultQ with
  | none => s
  | some (h, more, rest) =>
    let now := s.ns
    let key (d : Nat × Nat × Nat) : Bool := d.1 == faultCode h.name && d.2.1 == h.source
    let soon := x.delivered.any fun d => key d && decide (now < d.2.2 + 1000000)
    if suppressible h && soon then
      addF (addF (setField s f { x with faultQ := rest }) (fieldReg f oFldFaultStatus) 31 8 1) (modReg oModFaultLost) 31 0 1
    else
      let d := if suppressible h then x.delivered.filter (fun d => !key d) ++ [(faultCode h.name, h.source, now)] else x.delivered
      let s := setField s f { x with faultQ := rest, delivered := d }
      { s with carQ := s.carQ ++ h :: more }

/-- FAULT_PATH (R537): the field is fenced with cause 0x06. -/
def faultPath (s : State) (f : Nat) : State :=
  if fieldFenced s f then s else fenceField (queueCar s (carRec s 2 f .faultPath false true 0)) f 6

/-- FAULT_COLLECT (R537, R540, R542): a field's collector passes a record to Carnelian, where a record that fails its check
bits is lost and fences the field; or firmware takes the oldest record that has arrived into the fault log. -/
def execFaultCollect (src : Option FieldId) (good : Bool) (s : State) : Out :=
  if !s.boot.power then .next s
  else match src with
  | some f =>
    if good then .next (collect s f)
    else
      let x := getField s f
      match headGroup x.faultQ with
      | none => .next s
      | some (_, _, rest) => .next (faultPath (addF (setField s f { x with faultQ := rest }) (modReg oModFaultLost) 63 32 1) f)
  | none =>
    if !runtimeOn s then .next s
    else match headGroup s.carQ with
    | none => .next s
    | some (h, more, rest) => .next (logGroup { s with carQ := rest } h more)

/-- FAULT_POLL (R537, R542): Carnelian polls a field's collector each 1 ms; one that has not answered in 100 µs gives
FAULT_PATH. -/
def execFaultPoll (f : FieldId) (answered : Bool) (s : State) : Out :=
  if !s.boot.power then .next s
  else if answered then .next (if runtimeOn s then notifyFaults s else s)
  else .next (faultPath s f)

/-! ## Trace rings (R550) -/

/-- Records that a field's trace ring holds. -/
def ringRecords (s : State) (f : Nat) : Nat := getF s (fieldReg f oFldTraceBuf) 63 48 * 2048

/-- A record goes to the ring. -/
def traceOne (s : State) (f : Nat) (r : TraceRec) : State :=
  let st := fieldReg f oFldTraceStatus
  let n := ringRecords s f
  let i := getF s st 31 0
  let s := fwWrite s (memBase f + getF s (fieldReg f oFldTraceBuf) 33 0 + 32 * i) r.bytes
  if i + 1 < n then setF s st 31 0 (i + 1)
  else if getB s (fieldReg f oFldTraceCtl) 62 then setF (setF s st 31 0 0) st 63 63 1
  else setF (setF s st 31 0 n) st 62 62 1

/-- TRACE_WRITE (R550): the trace unit writes the records of a granule as class-1 traffic, unless its ring is full, the
gateway delays firmware's requests (R331) or no ring is set. -/
def execTraceWrite (f : FieldId) (s : State) : Out :=
  let x := getField s f
  let st := fieldReg f oFldTraceStatus
  if x.traceQ.isEmpty || fieldFenced s f || inBrace s || getB s (fieldReg f oGwStatus) 44 || getB s st 62 || ringRecords s f == 0 then .next s
  else
    let k := 2 - getF s st 0 0
    let s := setField s f { x with traceQ := x.traceQ.drop k }
    let s := (x.traceQ.take k).foldl (fun s r => traceOne s f r) s
    .next (actShared (addF s (clsCount f 1) 63 32 1) f 25 1)

end Sys2Proof.Machine
end

