-- ==== Sys2Proof/Machine/Mailbox.lean ====
section
/-! DEFINITION. Machine/Mailbox.lean: mailboxes, sessions, and the allocation service (R327 to R330, R469 to R473). -/
namespace Sys2Proof.Machine
open Sys2Proof

/-! ## Rings (R469) -/

/-- HST_MBm_CMD. -/
def mbCmdReg (m : Nat) : Nat := modReg (oHstMbCmd + 0x10 * m)
/-- HST_MBm_RSP. -/
def mbRspReg (m : Nat) : Nat := modReg (oHstMbRsp + 0x10 * m)
/-- Commands posted, modulo 128. -/
def mbTail (s : State) (m : Nat) : Nat := getF s (mbCmdReg m) 6 0
/-- Responses written, modulo 128. -/
def mbDone (s : State) (m : Nat) : Nat := getF s (mbRspReg m) 6 0
/-- Commands unanswered if the tail were `t`. -/
def unanswered (s : State) (m t : Nat) : Nat := (t + 128 - mbDone s m) % 128
/-- First byte of the oldest unanswered command's slot. -/
def mbSlot (s : State) (m : Nat) : Nat := mbAddr m (256 * (mbDone s m % 64))
/-- A field of that command. -/
def mbWord (s : State) (m off n : Nat) : Nat := rdNat s (mbSlot s m + off) n
/-- Its opcode. -/
def mbOp (s : State) (m : Nat) : Nat := mbWord s m 0 2
/-- Its argument length. -/
def mbLen (s : State) (m : Nat) : Nat := mbWord s m 4 2
/-- Argument bytes i to i + n − 1, as a number. -/
def mbArg (s : State) (m i n : Nat) : Nat := mbWord s m (8 + i) n

/-- Status codes of R471. -/
def stOk : Nat := 0
def stBusy : Nat := 1
def stTargetFenced : Nat := 3
def stPoisoned : Nat := 4
def stNoSpace : Nat := 5
def stInvalidHandle : Nat := 6
def stDoubleFree : Nat := 7
def stForeignFree : Nat := 8
def stPending : Nat := 9
def stBadCommand : Nat := 0xA
def stVersion : Nat := 0xB
def stNotNegotiated : Nat := 0xC
def stNoSession : Nat := 0xD
def stRefused : Nat := 0xE

/-- The session of a mailbox. -/
def sessionOf (s : State) (m : Nat) : Option Session := s.host.sessions.getD m none

/-- Opens or closes a mailbox's session. -/
def setSession (s : State) (m : Nat) (x : Option Session) : State :=
  setF { s with host := { s.host with sessions := s.host.sessions.set m x } } (mbRspReg m) 63 63 x.isSome.toNat

/-- One response: slot, done, vector (R469); after a link-down it is discarded and counted, and the last one closes the
session (R473). -/
def respondOne (s : State) (m st : Nat) (res : List Byte) : State :=
  let i := mbSlot s m
  let left := s.host.discard.getD m 0
  let r := mbRspReg m
  if 0 < left then
    let s := addF (addF { s with host := { s.host with discard := s.host.discard.set m (left - 1) } } r 31 16 1) r 6 0 1
    if left = 1 then setSession s m none else s
  else
    let head := rdBytes s i 4 ++ natLe 2 st ++ natLe 2 res.length
    signalHost (addF (wrBytes s (i + 0x4000) (head ++ res)) r 6 0 1) m

/-- Opcodes of R472. -/
def opcodes : List Nat :=
  [0x0001, 0x0002, 0x0010, 0x0011, 0x0012, 0x0013, 0x0020, 0x0021, 0x0030, 0x0031, 0x0032, 0x0033, 0x0040, 0x0041, 0x0050, 0x0051]

/-- Firmware serves the mailboxes: stage 3, and the runtime image outside a takeover. -/
def mbServed (s : State) : Bool := s.boot.power && (getF s (modReg oCarBootStatus) 2 0 == 3 || runtimeOn s)

/-- A command of the mailbox runs and has not been answered. -/
def mbBusy (s : State) (m : Nat) : Bool :=
  (match s.boot.stop with | some a => a.mb == m | none => false) || (match s.boot.update with | some a => a.mb == m | none => false) ||
    (match s.boot.starting with | some a => a.2 == m | none => false) || s.host.closing.any fun c => c.1 == m

/-- Unknown opcodes at the front of a mailbox are answered: NO_SESSION, or BAD_COMMAND (R470, R471). -/
def drainUnknown (m : Nat) : Nat → State → State
  | 0, s => s
  | n + 1, s =>
    if !mbServed s || mbBusy s m || unanswered s m (mbTail s m) == 0 || opcodes.contains (mbOp s m) then s
    else drainUnknown m n (respondOne s m (if (sessionOf s m).isNone then stNoSession else stBadCommand) [])

/-- A response, after which firmware goes on to the next command. -/
def respond (s : State) (m st : Nat) (res : List Byte) : State := drainUnknown m 64 (respondOne s m st res)

/-- REFUSED with reason and detail, and what else the results hold (R471, R525). -/
def refused (s : State) (m reason detail : Nat) (more : List Byte) : State :=
  respond s m stRefused (natLe 2 reason ++ natLe 2 detail ++ more)

/-- Feature bit of a command (R472). -/
def featureOf (op : Nat) : Option Nat :=
  if op = 0x10 then some 0 else if op = 0x11 then some 1 else if op = 0x12 ∨ op = 0x13 then some 2
  else if op = 0x20 ∨ op = 0x21 then some 3 else if 0x30 ≤ op ∧ op ≤ 0x33 then some 4
  else if op = 0x40 then some 5 else if op = 0x41 then some 6 else none

/-- Why a command is answered without being executed. -/
def mbRefusal (s : State) (m op : Nat) (lenOk : Nat → Bool) : Option Nat :=
  let lacks := match sessionOf s m, featureOf op with | some x, some b => !bitOf x.feats b | _, _ => false
  if op ≠ 1 ∧ (sessionOf s m).isNone then some stNoSession
  else if lacks then some stNotNegotiated
  else if !lenOk (mbLen s m) || mbWord s m 6 2 != 0 then some stBadCommand
  else none

/-- Firmware can execute a command with this opcode from a mailbox now. -/
def mbReady (s : State) (m op : Nat) : Bool :=
  mbServed s && !mbBusy s m && unanswered s m (mbTail s m) != 0 && mbOp s m == op

/-- A mailbox command: if it is the next one of its mailbox it is answered, or executed by `k`. -/
def mbCommand (m op : Nat) (lenOk : Nat → Bool) (s : State) (k : State → State) : Out :=
  if mbReady s m op then
    match mbRefusal s m op lenOk with
    | some st => .next (respond s m st [])
    | none => .next (k s)
  else .next s

/-- Session owner (R470). -/
def ownerOf (s : State) (m : Nat) : Nat := 3 * 2 ^ 28 + (match sessionOf s m with | some x => x.key * 4 | none => 0) + m

/-! ## Allocation (R327 to R330) -/

/-- 64 KiB. -/
def k64 : Nat := 0x10000
/-- Bytes of a field's stacked memory. -/
def fieldBytes : Nat := 0x400000000

/-- Lowest multiple of an alignment not below a number. -/
def alignUp (x a : Nat) : Nat := (x + a - 1) / a * a

/-- Allocations of a field. -/
def allocsIn (s : State) (f : Nat) : List Alloc := s.host.allocs.filter (·.field == f)

/-- An offset range meets no allocation and ends inside the field. -/
def offFree (s : State) (f off size : Nat) : Bool :=
  decide (off + size ≤ fieldBytes) && (allocsIn s f).all fun a => decide (off + size ≤ a.off) || decide (a.off + a.size ≤ off)

/-- Lowest aligned offset that fits. -/
def lowestOff (s : State) (f size align : Nat) : Option Nat :=
  (((0 :: (allocsIn s f).map fun a => a.off + a.size).map fun x => alignUp x align).filter fun o => offFree s f o size).foldl
    (fun b o => match b with | some x => some (min x o) | none => some o) none

/-- How often a record slot has been freed. -/
def slotFrees (s : State) (f slot : Nat) : Nat := smGet 0 (4096 * f + slot) s.host.seqs

/-- Sequence number of a record slot: 26 bits, which repeat (R328). -/
def slotSeq (s : State) (f slot : Nat) : Nat := slotFrees s f slot % 2 ^ 26

/-- The allocation in a record slot. -/
def slotAlloc (s : State) (f slot : Nat) : Option Alloc := (allocsIn s f).find? (·.slot == slot)

/-- Places an allocation: the lowest-numbered field allowed, the lowest aligned offset. -/
def place (s : State) (fields : List Nat) (size align owner : Nat) : Option Alloc :=
  fields.findSome? fun f =>
    if fieldFenced s f || decide (4096 ≤ (allocsIn s f).length) then none
    else match lowestOff s f size align, (List.range 4096).find? fun n => (slotAlloc s f n).isNone with
      | some o, some n => some ⟨f, o, size, owner, n, slotSeq s f n⟩
      | _, _ => none

/-- Fields that a request allows: one, or any. -/
def allowed (f : Nat) : List Nat := if f = 0xFF then List.range 64 else [f]

/-- Enters an allocation. -/
def addAlloc (s : State) (a : Alloc) : State := { s with host := { s.host with allocs := s.host.allocs ++ [a] } }

/-- Its module address. -/
def allocAddr (a : Alloc) : Nat := memBase a.field + a.off
/-- Its handle (R328). -/
def handleOf (a : Alloc) : Nat := a.field * 2 ^ 58 + a.seq * 2 ^ 32 + a.slot

/-- Firmware writes zeros over whole granules. -/
def zeroRange (s : State) (a size : Nat) : State :=
  let f := a / fieldBytes
  if fieldFenced s f then s
  else
    let s := { s with mem := s.mem.filter fun c => !(decide (a ≤ c.1) && decide (c.1 < a + size)) }
    modField s f fun x => { x with poison := x.poison.filter fun g => !(decide (a ≤ g * 64) && decide (g * 64 < a + size)) }

/-- Removes an allocation; its slot's sequence number advances. -/
def dropAlloc (s : State) (a : Alloc) : State :=
  { s with host := { s.host with allocs := s.host.allocs.filter (· ≠ a), seqs := smPut 0 (4096 * a.field + a.slot) (slotFrees s a.field a.slot + 1) s.host.seqs } }

/-- Frees every allocation of an owner. -/
def freeOwner (s : State) (owner : Nat) : State := (s.host.allocs.filter (·.owner == owner)).foldl dropAlloc s

/-- The window of an RDMA window register is open. -/
def winOpen (s : State) (n : Nat) : Bool := getB s (modReg (oSvcRwinCtl + 0x20 * n)) 63

/-- An enabled window of the field's table lies on a range (DEDUCED, log 93: one that reaches past the range was not opened on
it). -/
def tableWindowOn (s : State) (a : Alloc) : Bool :=
  (List.range 6).any fun c => (List.range 16).any fun w =>
    let r := fieldReg a.field oSvcGwwin + 0x100 * c + 0x10 * w
    getB s (r + 8) 63 && decide (a.off ≤ getF s r 43 22 * 4096) && decide (getF s r 21 0 * 4096 + 4096 ≤ a.off + a.size)

/-- Transfers to or from a range are pending (R329, R330). -/
def rangePending (s : State) (a : Alloc) : Bool :=
  !fieldFenced s a.field && (decide (0 < overlapping s a.field a.off a.size) || tableWindowOn s a ||
    s.host.wins.any fun w => winOpen s w.n && w.field == a.field && decide (w.lo < a.off + a.size) && decide (a.off < w.lo + w.size))

/-- Status of a free (R328), and the allocation it names. -/
def freeStatus (s : State) (h owner : Nat) : Nat × Option Alloc :=
  let f := bitsOf h 63 58
  let seq := bitsOf h 57 32
  let slot := bitsOf h 31 0
  let cur := slotSeq s f slot
  if 4096 ≤ slot ∨ slotFrees s f slot < seq then (stInvalidHandle, none)
  else if seq ≠ cur then (stDoubleFree, none)
  else match slotAlloc s f slot with
    | none => (stInvalidHandle, none)
    | some a =>
      if a.owner ≠ owner then (stForeignFree, some a)
      else if rangePending s a then (stPending, some a)
      else (stOk, some a)

/-- The probe that a free makes of its range, once its handle and its owner are in order and its field is not fenced (R328 to
R330). -/
def freeProbe (s : State) (st : Nat) (a : Option Alloc) : State := match a with
  | some a => if (st = stPending ∨ st = stOk) ∧ fieldFenced s a.field = false then fwProbe s a.field a.off a.size else s
  | none => s

/-- The record of a refused free (R535): raised by Carnelian core 3, which has the allocation duty (R523). -/
def freeRecord (s : State) (st : Nat) (a : Option Alloc) : State :=
  let addr := match a with | some a => allocAddr a | none => 0
  if st = stForeignFree then queueCar s { carRec s 6 3 .foreignFree false false addr with source := 3 }
  else if st = stDoubleFree then queueCar s { carRec s 6 3 .doubleFree false false addr with source := 3 }
  else s

/-- Whose range a range is: inside an allocation of an owner 0; else 8 where it meets another's allocation; else 6 (R472). -/
def rangeStatus (s : State) (owner a len : Nat) : Nat :=
  let f := a / fieldBytes
  let o := a % fieldBytes
  if (allocsIn s f).any fun x => x.owner == owner && decide (x.off ≤ o) && decide (o + len ≤ x.off + x.size) then stOk
  else if (allocsIn s f).any fun x => x.owner != owner && decide (x.off < o + len) && decide (o < x.off + x.size) then stForeignFree
  else stInvalidHandle

/-! ## Link-down (R473) -/

/-- The PCIe link goes down: each session closes once its outstanding commands have completed. -/
def hostLinkDown (s : State) : State :=
  (List.range 4).foldl (fun s m =>
    if (sessionOf s m).isNone then s
    else
      let n := unanswered s m (mbTail s m)
      let s := setF { s with host := { s.host with discard := s.host.discard.set m n } } (mbRspReg m) 63 63 0
      if n = 0 then setSession s m none else s) { s with host := { s.host with link := false } }

/-- HOST_LINK_DOWN (R473). -/
def execHostLinkDown (s : State) : Out := if s.boot.power && s.host.link then .next (hostLinkDown s) else .next s

/-- PERST (R592): asserted, it holds the host port in reset; released, the port enumerates. -/
def execPerst (asserted : Bool) (s : State) : Out :=
  if asserted then .next { hostLinkDown s with host := { (hostLinkDown s).host with perst := true, link := false } }
  else .next { s with host := { s.host with perst := false, link := s.boot.power } }

end Sys2Proof.Machine
end

