-- ==== Sys2Proof/Machine/Sha.lean ====
section
/-! DEFINITION. Machine/Sha.lean: SHA-384 and CRC-32 of images (R516, R560, R561). PRESUMED: SHA-384 is that of FIPS 180-4;
the CRC, whose polynomial R561 gives, is taken reflected, with all ones first and last, as IEEE 802.3 takes it. -/
namespace Sys2Proof.Machine
open Sys2Proof

/-- The largest r of so many bits with r ^ k ≤ n. -/
def rootOf (k n : Nat) : Nat → Nat → Nat
  | 0, r => r
  | b + 1, r => rootOf k n b (if (r + 2 ^ b) ^ k ≤ n then r + 2 ^ b else r)

/-- The first 80 primes. -/
def primes80 : List Nat := (List.range 410).filter fun n => decide (2 ≤ n) && (List.range n).all fun d => decide (d < 2) || n % d != 0

/-- Round constants: 64 bits of the fractions of the primes' cube roots. -/
def shaK : List W64 := primes80.map fun p => BitVec.ofNat 64 (rootOf 3 (p * 2 ^ 192) 72 0)

/-- Initial hash of SHA-384: fractions of the square roots of the 9th to 16th primes. -/
def shaInit : List W64 := ((primes80.drop 8).take 8).map fun p => BitVec.ofNat 64 (rootOf 2 (p * 2 ^ 128) 72 0)

/-- Big-endian bytes to a number. -/
def beNat : List (BitVec 8) → Nat := List.foldl (fun n b => 256 * n + b.toNat) 0

/-- n big-endian bytes of a number. -/
def natBe (n x : Nat) : List (BitVec 8) := (List.range n).map fun i => BitVec.ofNat 8 (x / 256 ^ (n - 1 - i))

/-- The padded message. -/
def shaPad (l : List (BitVec 8)) : List (BitVec 8) :=
  l ++ [0x80#8] ++ List.replicate ((239 - l.length % 128) % 128) 0#8 ++ natBe 16 (8 * l.length)

/-- Word 16 and on of the schedule; the list holds the words newest first. -/
def shaWords : Nat → List W64 → List W64
  | 0, w => w.reverse
  | n + 1, w =>
    let at_ (i : Nat) : W64 := w.getD (i - 1) 0#64
    let s0 := (at_ 15).rotateRight 1 ^^^ (at_ 15).rotateRight 8 ^^^ (at_ 15) >>> 7
    let s1 := (at_ 2).rotateRight 19 ^^^ (at_ 2).rotateRight 61 ^^^ (at_ 2) >>> 6
    shaWords n ((at_ 16 + s0 + at_ 7 + s1) :: w)

/-- One round on the eight working words. -/
def shaRound (v : List W64) (kw : W64 × W64) : List W64 :=
  let g (i : Nat) : W64 := v.getD i 0#64
  let s1 := (g 4).rotateRight 14 ^^^ (g 4).rotateRight 18 ^^^ (g 4).rotateRight 41
  let ch := (g 4 &&& g 5) ^^^ (~~~(g 4) &&& g 6)
  let t1 := g 7 + s1 + ch + kw.1 + kw.2
  let s0 := (g 0).rotateRight 28 ^^^ (g 0).rotateRight 34 ^^^ (g 0).rotateRight 39
  let maj := (g 0 &&& g 1) ^^^ (g 0 &&& g 2) ^^^ (g 1 &&& g 2)
  [t1 + s0 + maj, g 0, g 1, g 2, g 3 + t1, g 4, g 5, g 6]

/-- The blocks of a padded message. -/
def shaBlocks : Nat → List (BitVec 8) → List W64 → List W64
  | 0, _, h => h
  | n + 1, l, h =>
    let w := (List.range 16).map fun i => BitVec.ofNat 64 (beNat ((l.drop (8 * i)).take 8))
    let v := (shaK.zip (shaWords 64 w.reverse)).foldl shaRound h
    shaBlocks n (l.drop 128) (List.zipWith (· + ·) h v)

/-- SHA-384: 48 bytes. -/
def sha384 (l : List (BitVec 8)) : List (BitVec 8) :=
  let p := shaPad l
  ((shaBlocks (p.length / 128) p shaInit).take 6).flatMap fun w => natBe 8 w.toNat

/-- CRC-32 of a byte string. -/
def crc32 (l : List (BitVec 8)) : Nat :=
  let bit (c : Nat) : Nat := if c % 2 = 1 then c / 2 ^^^ 0xEDB88320 else c / 2
  (l.foldl (fun c b => (List.range 8).foldl (fun c _ => bit c) (c ^^^ b.toNat)) 0xFFFFFFFF) ^^^ 0xFFFFFFFF

end Sys2Proof.Machine
end

