-- ==== Sys2Proof/Machine/Boot.lean ====
section
/-! DEFINITION. Machine/Boot.lean: resets, watchdogs, ROM and stage 1, the flash and the JTAG port (R509 to R522, R552, R553,
R586, R592). -/
namespace Sys2Proof.Machine
open Sys2Proof

/-- HST_BOOT_STATUS's stage. -/
def stageOf (s : State) : Nat := getF s (modReg oCarBootStatus) 2 0
/-- Sets the stage. -/
def setStage (s : State) (v : Nat) : State := setF s (modReg oCarBootStatus) 2 0 v

/-! ## Core reset (R514) -/

/-- A register that holds a line's tap of a core. -/
def isTap (a : Nat) : Bool := match decodeAddr a with
  | some (.core _ o) => (inArr o (0x18000 + oCoreGar) 8 8).isSome
  | _ => false

/-- A core enters RESET: what it has queued, fetched, sent or received is discarded; register values and store contents,
with what its combiner and its counters had already taken, are kept; so are task, word and loop counters. -/
def quietCore (s : State) (c : Nat) : State :=
  let x := getCore s c
  let s := x.comb.foldl (fun s e => wrRowRaw s c e.row e.bytes) s
  let s := x.ctrAdd.foldl (fun s p => setCtr s c p.1 (ctrVal s c p.1 + BitVec.ofInt 16 p.2)) s
  setCore s c { idle := x.idle, conv := x.conv, task := x.task
                tasks := x.tasks.map fun t => { t with fpc := 0, floops := [0, 0, 0, 0], nextSlot := 0, fills := [] } }

/-- A core's transaction at a core reset: a write that the gateway had admitted completes, and every answer is dropped. -/
def finishTxn (s : State) (t : Txn) : State :=
  if t.stage = .tracker ∧ t.write then (t.left.foldl (fun (p : State × Txn) i => writeGranule p.1 p.2 i .clean) (s, t)).1 else s

/-- The compiled transactions of a field are dropped. -/
def dropCompiled (s : State) (f : Nat) : State :=
  let s := ((getField s f).txns.filter (·.cls == 0)).foldl finishTxn s
  modField s f fun x => { x with txns := x.txns.filter (·.cls != 0) }

/-- A core reset (R514), within one forced stop that begins and ends. -/
def coreReset (s : State) : State :=
  let s := forcedStop s .reset
  let s := (smKeys s.links).foldl (fun s l => modLink s l fun x => { x with pre := x.pre.map (readRest s) }) s
  let s := ((smKeys s.cores).filter fun c => !coreFenced s c).foldl quietCore s
  let s := ((smKeys s.clus).filter fun k => !cluFenced s k).foldl (fun s k =>
    let s := enterSummaries s k
    let x := getClu s k
    setClu s k { regs := x.regs, pc := x.pc, latch := x.latch }) s
  let s := (smKeys s.fields).foldl dropCompiled s
  let s := ((smKeys s.regs).filter isTap).foldl (fun s a => setF s a 10 10 0) s
  let s := (List.range 128).foldl (fun s i => setF s (modReg (oGarFbexpG + 8 * i)) 52 32 0) s
  let s := { s with gar := [], realDue := none, dom := { s.dom with arrived := none, reached := none, apply := none, ahead := [] }
                    clk := { s.clk with started := false, armed := none } }
  let s := setF (setF s (modReg oModCkptStatus) 63 63 0) (modReg oCarCoreReset) 1 1 1
  endCause s .reset

/-- CORE_RESET (R514): a write of CAR_CORE_RESET.go. -/
def execCoreReset (m : Master) (v : W64) (s : State) : Out :=
  .next (writeAccess m (modReg oCarCoreReset) s fun s => (.ok, if bitOf v.toNat 0 then coreReset s else s))

/-! ## Module reset (R513) -/

/-- Registers that a module reset keeps: Quartz time and reference, the input stage and the store, Carnelian's counts (R338,
R508, R513, R534). -/
def keptRegs : List Nat :=
  [oQtzTime, oClkRefStatus, oPwrShutdown, oPwrInput, oPwrHoldup, oCarUpdateStatus].map modReg

/-- A module reset with a cause: ROM onward. -/
def moduleReset (s : State) (cause : Nat) : State :=
  let brace := if inBrace s then [StopCause.brace] else []
  let b : State := { State.reset with
    pending := s.pending, freeCtr := s.freeCtr, ns := s.ns, reply := s.reply, msix := s.msix, smb := s.smb
    mem := s.mem.filter fun c => decide (c.1 < 0x10000000000)
    fields := (smKeys s.fields).foldl (fun m f =>
      let x := getField s f
      smPut {} f { poison := x.poison, scrub := x.scrub, scrubBase := scrubRows x / 2 ^ 23 } m) []
    clk := { aQual := s.clk.aQual, bQual := s.clk.bQual, switchTo := s.clk.switchTo, switchDone := s.clk.switchDone
             kind := if brace.isEmpty then 0 else 3, causes := brace, since := s.ns }
    pwr := { brace := if inBrace s then s.pwr.brace else none, gauge := s.pwr.gauge, discharge := s.pwr.discharge
             dischAbs := s.pwr.dischAbs, seenP := s.pwr.seenP }
    host := { perst := s.host.perst, link := s.host.link }
    boot := { mated := s.boot.mated, flash := s.boot.flash, flog := s.boot.flog, flogN := s.boot.flogN, defects := s.boot.defects
              flashHold := s.boot.flashHold && cause != 4, dbgEn := s.boot.dbgEn, boundary := s.boot.boundary, bypass := s.boot.bypass, driving := s.boot.driving } }
  let b := keptRegs.foldl (fun b a => setReg b a (getReg s a)) b
  let b := (List.range 5).foldl (fun b n => let r := modReg (oCarWdogCtl + 0x10 * n); setF b r 47 32 (getF s r 47 32)) b
  let b := setF b (modReg oCarUpdateStatus) 15 0 0
  let r := modReg oCarResetInfo
  let b := setF (setF b r 63 32 (getF s r 63 32 + 1)) r 7 0 cause
  let b := setF b (modReg oModFaultLost) 63 32 (s.carQ.filter fun q => !q.cont).length
  let b := (smKeys b.fields).foldl showScrub b
  setFieldTimes b (quartz s)

/-- MODULE_RESET (R513, R533): a write of HST_RESET_CTL with the key. -/
def execModuleReset (m : Master) (v : W64) (s : State) : Out :=
  .next (writeAccess m (modReg oHstResetCtl) s fun s => (.ok, if bitsOf v.toNat 15 0 = 0xA5C3 then moduleReset s 1 else s))

/-- POWER_ON (R513): the input comes into range, and a power-on start begins. -/
def execPowerOn (s : State) : Out :=
  if s.boot.power || !s.boot.mated then .next s
  else
    let b : State := { State.reset with
      pending := s.pending, freeCtr := s.freeCtr, ns := s.ns, reply := s.reply
      host := { perst := s.host.perst, link := !s.host.perst }
      boot := { flash := s.boot.flash, flog := s.boot.flog, flogN := s.boot.flogN, defects := s.boot.defects, dbgEn := s.boot.dbgEn }
      pwr := { discharge := s.pwr.discharge, dischAbs := s.pwr.dischAbs } }
    .next ([oPwrInput, oPwrShutdown].foldl (fun b o => setReg b (modReg o) (getReg s (modReg o))) b)

/-- MATE_DETECT (R586): the loop has been closed for 50 ms, or breaks; a break under load is a dip. -/
def execMateDetect (closed : Bool) (s : State) : Out :=
  let t := { s with boot := { s.boot with mated := closed } }
  if closed || !s.boot.power || inBrace s then .next t
  else .next (braceEntry t (BitVec.ofNat 16 (getF s (modReg oPwrInput) 63 48)))

/-! ## Watchdogs (R511, R512) -/

/-- Deadline of a watchdog that starts now. -/
def dogDeadline (s : State) (n : Nat) : Nat := s.ns + 1000000 * getF s (modReg (oCarWdogCtl + 0x10 * n)) 15 0

/-- Arms a watchdog. -/
def armDog (s : State) (n : Nat) : State :=
  setF { s with boot := { s.boot with dogs := s.boot.dogs.set n (some (dogDeadline s n)) } } (modReg (oCarWdogCtl + 0x10 * n)) 63 63 1

/-- A write of CAR_WDOGn_KICK: only core n restarts its count. -/
def kickWrite (s : State) (m : Master) (n : Nat) (v : W64) : State :=
  let own := match m with | .boot => n == 0 | .app i => n == i.val + 1 | _ => false
  if own && bitOf v.toNat 0 && (s.boot.dogs.getD n none).isSome then
    { s with boot := { s.boot with dogs := s.boot.dogs.set n (some (dogDeadline s n)) } }
  else s

/-- CAR_WDOG_KICK (R511). -/
def execCarWdogKick (m : Master) (n : Fin 5) (v : W64) (s : State) : Out :=
  .next (writeAccess m (modReg (oCarWdogKick + 0x10 * n)) s fun s => (.ok, kickWrite s m n v))

/-- An update fails back to the old image (R530): UPDATE is answered REFUSED with reason 0x0A. -/
def failBack (s : State) (why : Nat) : State :=
  let mb := match s.boot.update with | some a => a.mb | none => 0
  let s := addF (setUpd s 5) (modReg oCarUpdateStatus) 47 32 1
  refused { s with boot := { s.boot with update := none, takeover := none } } mb 0x0A why []

/-- WATCHDOG_EXPIRED (R512): module reset with cause 2; crash record, fault record and module reset with cause 3; or
fail-back. -/
def execWatchdogExpired (n : Fin 5) (s : State) : Out :=
  match s.boot.dogs.getD n none with
  | none => .next s
  | some t =>
    if !s.boot.power || decide (s.ns < t) then .next s
    else
      let s := raiseAlert (addF s (modReg (oCarWdogCtl + 0x10 * n)) 47 32 1) 6
      if n.val = 0 then .next (moduleReset (queueCar s (carRec s 6 0 .watchdogExpired true false 0)) 2)
      else if updState s = 3 then
        let s := queueCar s (carRec s 6 n .watchdogExpired false false 0)
        .next (failBack { s with boot := { s.boot with dogs := s.boot.dogs.set n (some (dogDeadline s n)) } } 3)
      else
        let r := carRec s 6 n .watchdogExpired true false (flashNext s)
        let s := flashAppend (forcedStop s .reset) 0 false (some n.val) []
        .next (moduleReset (signalHost (logGroup s r []) 8) 3)

/-- RUNTIME_START_TIMEOUT (R522): no reply within 100 ms of the start. -/
def execRuntimeStartTimeout (s : State) : Out :=
  match s.boot.starting with
  | some (t, _) => if t + 100000000 ≤ s.ns then .next (moduleReset s 5) else .next s
  | none => .next s

/-! ## Flash and images (R515, R516) -/

/-- A byte of the flash: as shipped where nothing has written it. -/
def flashByte (s : State) (o : Nat) : Byte := match s.boot.flash.find? (·.1 == o) with
  | some c => c.2
  | none => Config.flash o

/-- Bytes of the flash. -/
def flashBytes (s : State) (o n : Nat) : List Byte := (List.range n).map fun i => flashByte s (o + i)

/-- Nothing has written a region since the factory. -/
def asShipped (s : State) (o n : Nat) : Bool := s.boot.flash.all fun c => decide (c.1 < o) || decide (o + n ≤ c.1)

/-- Bytes i to i + n − 1 of a header, as a number. -/
def hdr (l : List Byte) (i n : Nat) : Nat := leNat ((l.drop i).take n)

/-- R516: magic, format, kind, digest and signature of an image of at most `max` payload bytes. -/
def imageValid (keys l : List Byte) (kind max : Nat) : Bool :=
  let n := hdr l 16 4
  hdr l 0 4 == 0x4B434E4C && hdr l 4 2 == 1 && hdr l 6 1 == kind && decide (hdr l 7 1 < 4) && decide (n ≤ max) &&
    decide (256 + n ≤ l.length) && sha384 ((l.drop 256).take n) == (l.drop 48).take 48 &&
    Config.signatureValid keys (l.take 96) ((l.drop 96).take 96)

/-- A stage-1 slot is valid; as shipped it is (R599). -/
def slotValid (s : State) (o : Nat) : Bool := asShipped s o 0x40000 || imageValid [] (flashBytes s o 0x40000) 1 0x30000

/-- ROM_BOOT (R511, R517): the ROM arms watchdog 0, checks slot A, then slot B, and starts the first that is valid. -/
def execRomBoot (s : State) : Out :=
  if !s.boot.power || s.boot.flashHold || stageOf s != 0 then .next s
  else
    let s := armDog s 0
    let start (s : State) (slot : Nat) : State :=
      let s := setF s (modReg oCarImageInfo) 63 32 (leNat (flashBytes s (0x40000 * slot + 8) 4))
      setStage (setF s (modReg oCarBootStatus) 8 8 slot) 1
    if slotValid s 0 then .next (start s 0)
    else if slotValid s 0x40000 then .next (start s 1)
    else .next (setStage (setF s (modReg oCarBootStatus) 63 48 1) 7)

/-! ## Stage 1 (R518 to R521) -/

/-- The configuration record in the flash, header and payload. -/
def configImage (s : State) : List Byte :=
  let h := flashBytes s 0x80000 256
  h ++ flashBytes s 0x80100 (min (hdr h 16 4) 0xFFF00)

/-- It is valid (R516, R518); as shipped it is (R599). -/
def configValid (s : State) : Bool := asShipped s 0x80000 0x100000 || imageValid [] (configImage s) 3 0xFFF00

/-- Fences the fields of a list. -/
def fenceAll (s : State) (fs : List Nat) (cause : Nat) : State := fs.foldl (fun s f => fenceField s f cause) s

/-- Skips a column of a row that skips none; false where it skips one already (R20, R30). -/
def skipCore (s : State) (f row col : Nat) : Option State :=
  if skipOf s f row = 128 then some (setF s (fieldReg f (oFldRepairRow + 8 * (row / 8))) (8 * (row % 8) + 7) (8 * (row % 8)) col) else none

/-- Puts the spare channel in for a channel, if it is free (R25, R30). -/
def spareChannel (s : State) (f ch : Nat) : Option State :=
  let r := fieldReg f oFldSpareMap
  if getB s r 7 then none else some (setF (setF s r 7 7 1) r 4 0 ch)

/-- Step 3: factory maps and the service repair record (R30, R32, R519). -/
def mergeRepair (s : State) (c : CfgRecord) : State :=
  let tooBig (v : W64) : Bool := (List.range 8).any fun i => decide (128 < bitsOf v.toNat (8 * i + 7) (8 * i))
  let s := fenceAll s (c.bad ++ (c.repair.filter fun p => tooBig p.2.2).map (·.1)) 6
  let s := (c.repair.filter fun p => !fieldFenced s p.1).foldl (fun s p => setReg s (fieldReg p.1 (oFldRepairRow + 8 * p.2.1)) p.2.2) s
  let s := (c.spares.filter fun p => !fieldFenced s p.1).foldl (fun s p => setReg s (fieldReg p.1 oFldSpareMap) p.2) s
  s.boot.defects.foldl (fun s d => match d with
    | .core f row col => if fieldFenced s f then s else (skipCore s f row col).getD (fenceField s f 6)
    | .channel f ch => if fieldFenced s f then s else (spareChannel s f ch).getD (fenceField s f 6)) s

/-- Step 4: a channel fails its training. -/
def trainFail (s : State) (p : FieldId × Fin 32) : State :=
  if fieldFenced s p.1 then s else (spareChannel s p.1 p.2).getD (fenceField s p.1 3)

/-- Step 7: a faulty Garnet segment; the spare, if it is sound and free, stands in, and any other line runs in fallback. -/
def segmentFail (s : State) (p : FieldId × Fin 9) : State :=
  let f := p.1.val
  let st := fieldReg f oGarFldStatus
  let m := fieldReg f oFldSpareMap
  if fieldFenced s f then s
  else if p.2.val = 8 then setF s st 24 24 1
  else
    let s := setF s st (8 + p.2) (8 + p.2) 1
    if !getB s m 15 && !getB s st 24 then setF (setF s m 15 15 1) m 14 12 p.2
    else let r := modReg (oGarLineCtl + 8 * p.2.val); setF (setF s r 8 8 1) r 0 0 1

/-- Step 8: a bad core is skipped and recorded for later starts; a row that skips one already fences the field. -/
def patternFail (s : State) (p : FieldId × Fin 128 × Fin 129) : State :=
  if fieldFenced s p.1 then s
  else match skipCore s p.1 p.2.1 p.2.2 with
    | some s => { s with boot := { s.boot with defects := s.boot.defects ++ [.core p.1 p.2.1 p.2.2] } }
    | none => fenceField s p.1 2

/-- Step 9: all stacked memory of a field reads as zero, with no granule poisoned. -/
def zeroField (s : State) (f : Nat) : State := zeroRange s (memBase f) fieldBytes

/-- The first class-3 window of a table that is not enabled. -/
def freeWindow (s : State) (base cls : Nat) : Option Nat :=
  (List.range 16).find? fun w => !getB s (base + 0x100 * (cls - 1) + 0x10 * w + 8) 63

/-- Writes a window of a table. -/
def setWindow (s : State) (base cls w val perm : Nat) : State :=
  let a := base + 0x100 * (cls - 1) + 0x10 * w
  setReg (setReg s a (BitVec.ofNat 64 val)) (a + 8) (BitVec.ofNat 64 perm)

/-- Grants class 3 reads and writes of a window, in the first window that is free. -/
def grantHost (s : State) (base val : Nat) : State := match freeWindow s base 3 with
  | some w => setWindow s base 3 w val (7 * 2 ^ 61 + 1)
  | none => s

/-- Owner of firmware's own allocations (R327). -/
def fwOwner : Nat := 2 * 2 ^ 28

/-- Steps 10 of R520 and R521: staging range, configuration copy, access tables, and the host port. -/
def openHost (s : State) (c : CfgRecord) : State :=
  let copy := configImage s
  let s := if fieldFenced s 0 then s else
    let s := addAlloc s ⟨0, 0, 0x4000000, fwOwner, 0, slotSeq s 0 0⟩
    fwStore (addAlloc s ⟨0, 0x4000000, alignUp copy.length k64, fwOwner, 1, slotSeq s 0 1⟩) 0x4000000 copy
  let s := c.tables.foldl (fun s p => loadReg s p.1 p.2) s
  let s := grantHost s (fieldReg 0 oSvcGwwin) 0x3FFF
  let s := grantHost s (modReg oSvcRegwin) (0xF000007 * 2 ^ 32 + 0xF000007)
  let s := grantHost s (modReg oSvcRegwin) (0xF100000 * 2 ^ 32 + 0xF10003F)
  setStage (setReg s (modReg oHstAper) 0#64) 3

/-- WAFER_BRINGUP (R518 to R521): stage 1 checks the configuration record, brings up the wafer and opens the host port. -/
def execWaferBringup (x : Bringup) (s : State) : Out :=
  if !s.boot.power || stageOf s != 1 then .next s
  else if !configValid s then .next (setStage (setF s (modReg oCarBootStatus) 63 48 2) 7)
  else if !x.charged then .next (setStage (setF s (modReg oCarBootStatus) 63 48 3) 7)
  else
    let c := Config.configRecord ((configImage s).drop 256)
    let s := setReg (setStage s 2) (modReg oLnkSelfId) c.serial
    let s := (List.range 8).foldl (fun s j => match c.macs[j]? with
      | some a => setReg s (linkReg (40 + j) oSvcEthMac) (a.zeroExtend 64)
      | none => s) s
    let s := mergeRepair (fenceAll s (x.rails.map (·.val)) 6) c
    let s := x.channels.foldl trainFail s
    let s := ((List.range 64).filter fun f => !(x.clocks.any (·.val == f))).foldl (fun s f => setF s (fieldReg f oFldClkStatus) 15 15 1) s
    let s := fenceAll s (x.clocks.map (·.val)) 4
    let s := x.segments.foldl segmentFail s
    let s := fenceAll (x.cores.foldl patternFail s) (x.patterns.map (·.val)) 2
    let s := if getF s (modReg oCarResetInfo) 7 0 = 0 ∧ getF s (modReg oCarResetInfo) 63 32 = 0 then
        ((List.range 64).filter fun f => !fieldFenced s f).foldl zeroField (fenceAll s (x.fills.map (·.val)) 3)
      else s
    .next (openHost s c)

/-! ## JTAG (R552, R553) -/

/-- Bits of a shifted register, one to a byte. -/
def bitBytes (l : List Bool) : List Byte := l.map fun b => if b then 1#8 else 0#8

/-- A JTAG instruction reaches a powered module; it ends what EXTEST drives. -/
def tap (s : State) (k : State → State) : Out :=
  if !s.boot.power then .next s else .next (k { s with boot := { s.boot with driving := false } })

/-- The 1-bit bypass register. -/
def bypass (s : State) (tdi : Bool) : State := answer { s with boot := { s.boot with bypass := tdi } } .ok (bitBytes [s.boot.bypass])

/-- BYPASS: the bit shifted in is shifted out one bit later. -/
def execBypass (tdi : Bool) (s : State) : Out := tap s fun s => bypass s tdi

/-- IDCODE: the 32-bit identity. -/
def execIdcode (s : State) : Out := tap s fun s => answer s .ok (natLe 4 (getF s (modReg oModJtagIdcode) 31 0))

/-- SAMPLE/PRELOAD: the pins are sampled and shifted out, and what is shifted in stands in the boundary register. -/
def execSamplePreload (pins shift : List Bool) (s : State) : Out :=
  tap s fun s => answer { s with boot := { s.boot with boundary := shift } } .ok (bitBytes pins)

/-- EXTEST: the boundary register drives the pins; what they carry is shifted out, and what is shifted in is driven next. -/
def execExtest (pins shift : List Bool) (s : State) : Out :=
  tap s fun s => answer { s with boot := { s.boot with boundary := shift, driving := true } } .ok (bitBytes pins)

/-- Notes the level of the debug-enable pin. -/
def setDbg (s : State) (dbg : Bool) : State := { s with boot := { s.boot with dbgEn := dbg } }

/-- Writes bytes of the flash. -/
def flashWrite (s : State) (o : Nat) (l : List Byte) : State :=
  { s with boot := { s.boot with flash := (l.zipIdx).foldl (fun m p => smInsert (o + p.2) p.1 (smErase (o + p.2) m)) s.boot.flash } }

/-- FLASH (R553): with DBG_EN high it holds the boot core, whose watchdog stops, and bytes of the flash are written through the
port; leaving it makes a module reset with cause 4. -/
def execFlash (dbg stay : Bool) (off : Fin 0x4000000) (data : List Byte) (s : State) : Out :=
  tap s fun s =>
    let s := setDbg s dbg
    if !dbg then bypass s false
    else if stay then flashWrite { s with boot := { s.boot with flashHold := true, dogs := s.boot.dogs.set 0 none } } off data
    else if s.boot.flashHold then moduleReset s 4 else s

/-- An address on the compute wafer: core windows, field, cluster and steward blocks. -/
def onWafer (a : Nat) : Bool := decide (0x200000000000 ≤ a) && decide (a < 0x300040000000)

/-- SCAN (R553): with DBG_EN high and every core in RESET it destroys all on-wafer state. -/
def execScan (dbg : Bool) (s : State) : Out :=
  tap s fun s =>
    let s := setDbg s dbg
    if !dbg then bypass s false
    else if !allReset s then s
    else { s with boot := { s.boot with scanned := true }, cores := [], clus := [], shadow := []
                  mem := s.mem.filter fun c => !onWafer c.1
                  regs := s.regs.filter fun c => !onWafer c.1 }

/-- RESET: module reset with cause 4. -/
def execReset (s : State) : Out := tap s fun s => moduleReset s 4

end Sys2Proof.Machine
end

