-- ==== Sys2Proof/Machine/Handover.lean ====
section
/-! DEFINITION. Machine/Handover.lean: the handover record of a live update: header, sections, CRC, and what an image makes of
a record (R529). The bodies of the sections are an opaque function of what R529 says they hold (log 108). -/
namespace Sys2Proof.Machine
open Sys2Proof

/-- Longest body of a section: eight of them and the header lie within the record's 64 KiB (R510). -/
def bodyMax : Nat := 0x1FF0

/-- A section: 4-byte type, 4-byte length, body. -/
def sectionBytes (p : Nat × List Byte) : List Byte := natLe 4 p.1 ++ natLe 4 p.2.length ++ p.2

/-- The record of a version: header, CRC over bytes 16 to the end, writer's version, Quartz time, sections. Its length is that
of the whole record (DEDUCED, log 108). -/
def recordBytes (version writer time : Nat) (sections : List (Nat × List Byte)) : List Byte :=
  let tail := natLe 4 writer ++ natLe 4 0 ++ natLe 8 time ++ sections.flatMap sectionBytes
  natLe 4 0x4B484F56 ++ natLe 1 version ++ natLe 3 0 ++ natLe 4 (16 + tail.length) ++ natLe 4 (crc32 tail) ++ tail

/-- What a section of a type holds (R529). -/
def sectionHolds (s : State) : Nat → List Nat
  | 1 => (List.range 4).flatMap fun m => match s.host.sessions.getD m none with
    | some x => [1, x.key, x.minor, x.feats, mbTail s m, mbDone s m]
    | none => [0, mbTail s m, mbDone s m]
  | 2 => (List.range 4).flatMap fun m => [unanswered s m (mbTail s m), s.host.discard.getD m 0]
  | 3 => s.host.allocs.length :: (s.host.allocs.filter (·.owner == fwOwner)).flatMap fun a => [handleOf a, allocAddr a, a.size]
  | 4 => (s.host.wins.flatMap fun w => [w.n, w.field, w.lo, w.size, w.group, w.gw]) ++
      (s.host.qps.flatMap fun q => [q.group, q.q, q.mtu, leNat q.gid, q.qpn, q.psns.1, q.psns.2]) ++
      (List.range 32).map fun g => (getReg s (modReg (oSvcQg + 8 * g))).toNat
  | 5 => ((List.range 40).flatMap fun l => [(getLink s l).downAt, (getReg s (linkReg l oLnkStatus)).toNat]) ++
      [(getReg s (modReg oLnkAltActive)).toNat, (getReg s (modReg oLnkSpareSub)).toNat, (getReg s (modReg oLnkQtzSrc)).toNat]
  | 6 => (s.pwr.eps.flatMap fun p => [p.1, p.2]) ++ (s.pwr.cyc.flatMap fun p => [p.1, p.2]) ++
      [s.pwr.bank, s.pwr.gauge.toNat, getF s (modReg oPwrHoldupCal) 31 16, s.pwr.steps]
  | 7 => (match s.boot.prog with | some p => [p.id, p.addr] | none => []) ++ [(getReg s (modReg oModCkptCtl)).toNat] ++
      (s.twin.own ++ s.twin.peer).map (·.step)
  | 8 => [nextSeq s, s.boot.faultsRead, (s.boot.flog.filter (·.unreported)).length]
  | _ => []

/-- The sections that the old image writes: one of each type of R529. -/
def handoverSections (s : State) : List (Nat × List Byte) :=
  [1, 2, 3, 4, 5, 6, 7, 8].map fun k => (k, (Config.handoverSection k (sectionHolds s k)).take bodyMax)

/-- The record that the running image writes (R528, R529). -/
def handoverRecord (s : State) : List Byte :=
  let w := match s.boot.slots.getD (getF s (modReg oCarBootStatus) 9 9) none with | some i => i.writes | none => 0
  recordBytes w (getF s (modReg oCarImageInfo) 31 0) (quartz s) (handoverSections s)

/-- The sections from a place on; none where one runs past the end. -/
def readSections : Nat → List Byte → Option (List (Nat × List Byte))
  | _, [] => some []
  | 0, _ => none
  | n + 1, l =>
    let k := hdr l 4 4
    if l.length < 8 + k then none else (readSections n (l.drop (8 + k))).map ((hdr l 0 4, (l.drop 8).take k) :: ·)

/-- What an image makes of a record: the sections of the types it knows. A wrong magic, length or CRC, a version that it does
not read, or a type below 0x80 that it does not know makes the record unreadable; other unknown types are skipped. -/
def readHandover (i : RtImage) (l : List Byte) : Option (List (Nat × List Byte)) :=
  if hdr l 0 4 = 0x4B484F56 ∧ hdr l 5 3 = 0 ∧ hdr l 8 4 = l.length ∧ 32 ≤ l.length ∧ hdr l 12 4 = crc32 (l.drop 16) ∧
      i.reads ≤ hdr l 4 1 ∧ hdr l 4 1 ≤ i.writes then
    match readSections l.length (l.drop 32) with
    | some ps =>
      let known (p : Nat × List Byte) : Bool := decide (1 ≤ p.1) && decide (p.1 ≤ 8)
      if ps.all fun p => known p || decide (0x80 ≤ p.1) then some (ps.filter known) else none
    | none => none
  else none

end Sys2Proof.Machine
end

