-- ==== Sys2Proof/Machine/Host.lean ====
section
/-! DEFINITION. Machine/Host.lean: RDMA, datagrams, the mailbox commands but LOAD, live update, and the end of a hush (R356,
R464 to R473, R521 to R531, R543). -/
namespace Sys2Proof.Machine
open Sys2Proof

/-! ## Service links (R463 to R467) -/

/-- A service link is up. -/
def svcUp (s : State) (j : Nat) : Bool := getB s (linkReg (40 + j) oSvcEthStatus) 0

/-- SERVICE_LINK_DOWN (R466): a link loses or regains link; an enabled port that regains it has FEC lock. Its queue pairs
stay. -/
def execServiceLinkDown (j : Fin 8) (up : Bool) (s : State) : Out :=
  if !s.boot.power then .next s
  else
    let on := up && getB s (linkReg (40 + j) oSvcEthCtl) 0
    .next (setF s (linkReg (40 + j) oSvcEthStatus) 1 0 (if on then 3 else 0))

/-- The queue group of a queue-pair number, if the pair is set up, its group enabled and the link one of the group's. -/
def qpGroup (s : State) (j qpn : Nat) : Option (Fin 32) :=
  if qpn < 0x10000 ∨ 0x10800 ≤ qpn then none
  else
    let g := Fin.ofNat 32 ((qpn - 0x10000) / 64)
    let r := modReg (oSvcQg + 8 * g.val)
    if (s.host.qps.any fun p => p.group == g.val && p.q == qpn % 64) && getB s r 63 && getB s r j then some g else none

/-- Path MTU of a queue pair. -/
def mtuOf (s : State) (qpn : Nat) : Nat :=
  match s.host.qps.find? fun p => p.group == (qpn - 0x10000) / 64 && p.q == qpn % 64 with
  | some p => p.mtu
  | none => 1024

/-- Steps 2 and 3 of R465: the module address of a checked request. -/
def windowAddr (s : State) (g : Nat) (rkey va len : Nat) (write : Bool) : Option Nat :=
  let n := rkey / 2 ^ 24 % 256
  let r := modReg (oSvcRwinCtl + 0x20 * n)
  let size := getF s (modReg (oSvcRwinSize + 0x20 * n)) 34 0
  if getB s r 63 && getF s r 60 56 == g && getF s r 23 0 == rkey % 2 ^ 24 && decide (va + len ≤ size) && getB s r (if write then 61 else 62) then
    some (getF s (modReg (oSvcRwinBase + 0x20 * n)) 47 0 + va)
  else none

/-- The packets of a request enter the gateway; the first that meets BUSY ends it. -/
def rdmaPackets (g : Fin 32) (link mtu : Nat) (write : Bool) : Nat → State → Nat → List Byte → Nat → State
  | 0, s, _, _, _ => s
  | n + 1, s, a, data, len =>
    let k := min mtu len
    match masterTxn s 3 (.rdma g (if k = len then link else link + 64)) write a k (data.take k) with
    | (.ok, s) => if k = len then s else rdmaPackets g link mtu write n s (a + k) (data.drop k) (len - k)
    | (st, s) => rdmaAnswer s link st []

/-- A checked RDMA request (R465). -/
def rdma (s : State) (j qpn rkey va len : Nat) (write : Bool) (data : List Byte) : State :=
  let link := 40 + j
  match qpGroup s j qpn with
  | none => rdmaAnswer s link .nakInvalid []
  | some g => match windowAddr s g rkey va len write with
    | none => rdmaAnswer s link .nakAccess []
    | some a =>
      if len = 0 then
        let s := if write then addF s (linkReg link oSvcRdmaOps) 31 0 1 else addF s (linkReg link oSvcRdmaOps) 63 32 1
        answer s .ok []
      else
        let p := Place.stacked (a / fieldBytes) (a % fieldBytes)
        match checkAt s (.group g) write p a len with
        | .ok => rdmaPackets g link (mtuOf s qpn) write (len / 1024 + 1) s a data len
        | st =>
          let s := if st = .accessDenied then deny s p (.group g) write a else s
          rdmaAnswer (refuse s (.group g) write a 0 st) link st []

/-- RDMA_READ (R465): a READ request on service link 40 + j. -/
def execRdmaRead (j : Fin 8) (qpn : BitVec 24) (rkey : W32) (va : W64) (len : W32) (s : State) : Out :=
  if s.boot.power && svcUp s j then .next (rdma s j qpn.toNat rkey.toNat va.toNat len.toNat false []) else .next s

/-- RDMA_WRITE (R465). -/
def execRdmaWrite (j : Fin 8) (qpn : BitVec 24) (rkey : W32) (va : W64) (data : List Byte) (s : State) : Out :=
  if s.boot.power && svcUp s j then .next (rdma s j qpn.toNat rkey.toNat va.toNat data.length true data) else .next s

/-- RDMA_UNSUPPORTED (R464): SEND, atomics and memory-window binding are answered NAK Invalid Request. -/
def execRdmaUnsupported (j : Fin 8) (s : State) : Out :=
  if s.boot.power && svcUp s j then .next (rdmaAnswer s (40 + j) .nakInvalid []) else .next s

/-- MGMT_DATAGRAM (R467): a datagram at the management port on links 40 to 43; from a listed peer firmware receives it, from
another it is discarded and counted. -/
def execMgmtDatagram (j : Fin 4) (port : BitVec 16) (v6 : Bool) (addr : W32) (data : List Byte) (s : State) : Out :=
  let r := modReg oSvcMgmt
  let p := getF s r 15 0
  let listed := (List.range 16).any fun n =>
    let q := modReg (oSvcMgmtPeer + 8 * n)
    getB s q 63 == v6 && getF s q 31 0 == addr.toNat && addr != 0#32
  if !s.boot.power || !svcUp s j || p == 0 || p != port.toNat then .next s
  else if listed && decide (data.length ≤ 8192) && runtimeOn s then .next { s with host := { s.host with mgmt := s.host.mgmt ++ [data] } }
  else .next (addF s r 31 16 1)

/-! ## Doorbell and sessions (R469, R470) -/

/-- A write of HST_MBm_CMD: a tail that leaves more than 64 commands unanswered is refused. -/
def doorbellWrite (s : State) (m : Nat) (v : W64) : Status × State :=
  let t := bitsOf v.toNat 6 0
  if 64 < unanswered s m t then (.configRejected, s) else (.ok, drainUnknown m 64 (setF s (mbCmdReg m) 6 0 t))

/-- MAILBOX_DOORBELL (R469). -/
def execMailboxDoorbell (w : Master) (mb : Fin 4) (v : W64) (s : State) : Out :=
  .next (writeAccess w (mbCmdReg mb) s fun s => doorbellWrite s mb v)

/-- Runtime slot in use. -/
def rtSlot (s : State) : Nat := getF s (modReg oCarBootStatus) 9 9
/-- The runtime image in use. -/
def rtImage (s : State) : Option RtImage := s.boot.slots.getD (rtSlot s) none
/-- Features that firmware offers (R472). -/
def offered (s : State) : Nat := if stageOf s = 3 then 1 else match rtImage s with | some i => i.feats % 128 | none => 0
/-- CAR_IMAGE_INFO.rt_version. -/
def rtVersion (s : State) : Nat := getF s (modReg oCarImageInfo) 31 0

/-- HELLO (R470). On an open session it ends that session, a refused one too; no register says what the host has taken of the
old session's responses, which stay in the ring (log 95). -/
def execHello (mb : Fin 4) (s : State) : Out :=
  mbCommand mb 0x0001 (· == 20) s fun s =>
    if mbArg s mb 0 1 ≠ 3 then respond (setSession s mb none) mb stVersion []
    else
      let f := offered s &&& mbArg s mb 4 16
      let s := setSession s mb (some ⟨mbArg s mb 2 2, min (mbArg s mb 1 1) 1, f⟩)
      respond s mb stOk (natLe 1 3 ++ natLe 1 1 ++ natLe 4 (rtVersion s) ++ natLe 16 (offered s) ++ natLe 16 f ++ natLe 4 (ownerOf s mb))

/-- BYE (R472): the session closes; windows and allocations stay. -/
def execBye (mb : Fin 4) (s : State) : Out :=
  mbCommand mb 0x0002 (· == 0) s fun s => respond (setSession s mb none) mb stOk []

/-! ## Runtime image (R522, R523) -/

/-- What firmware keeps of an image. -/
def rtOf (l : List Byte) : RtImage := ⟨hdr l 8 4, hdr l 20 4, hdr l 24 16, hdr l 40 1, hdr l 41 1⟩

/-- Header bytes 48 to 95 of the stage-1 image that runs: they name the keys that it lists. -/
def s1Keys (s : State) : List Byte := flashBytes s (0x40000 * getF s (modReg oCarBootStatus) 8 8 + 48) 48

/-- Why a runtime image in the staging range is not taken (R522): a status and a reason. -/
def stagedRefusal (s : State) (a n : Nat) : Option (Nat × Nat) :=
  let l := rdBytes s a n
  if n < 256 ∨ 0x4000000 < a + n then some (stBadCommand, 0)
  else if fieldFenced s 0 then some (stTargetFenced, 0)
  else if rangePoisoned s a n then some (stPoisoned, 0)
  else if !imageValid (s1Keys s) l 2 0xC0000 then some (stRefused, 0x01)
  else if getF s (modReg oCarImageInfo) 63 32 < hdr l 12 4 then some (stRefused, 0x0B)
  else none

/-- Firmware reads a staged image, where its range is one of the staging range (R522). -/
def readStaged (s : State) (a n : Nat) : State := if n < 256 ∨ 0x4000000 < a + n then s else fwRead s a n

/-- Answers a command that is not taken. -/
def notTaken (s : State) (m : Nat) (r : Nat × Nat) : State := if r.1 = stRefused then refused s m r.2 0 [] else respond s m r.1 []

/-- Replays the flash records still marked unreported into a new fault log, the first with lost = 1 (R544). -/
def replayFlash (s : State) : State :=
  let l := s.boot.flog.filter fun r => r.unreported && r.crash.isNone
  (l.zipIdx).foldl (fun s p =>
    let b := if p.2 = 0 then p.1.bytes.set 21 (p.1.bytes.getD 21 0#8 ||| 2#8) else p.1.bytes
    addF (fwStore s (logAddr s + 32 * (nextSeq s % 65536)) b) (modReg oModFaultSeq) 63 32 1) s

/-- A class-2 allocation of firmware whose address a register holds. -/
def fwAlloc (s : State) (size reg : Nat) : State := match place s (List.range 64) size k64 fwOwner with
  | some a => setF (addAlloc s a) reg 47 0 (allocAddr a)
  | none => s

/-- The runtime image begins its duties: fault log and energy log, unreported records (R498, R542, R544). -/
def beginRuntime (s : State) : State := replayFlash (fwAlloc (fwAlloc s 0x200000 (modReg oModFaultLog)) 0x400000 (modReg oPwrElog))

/-- IMAGE_COMMIT (R522): the image is checked and started; `starts` says whether it then replies, or hangs (R522). -/
def execImageCommit (mb : Fin 4) (starts : Bool) (s : State) : Out :=
  if inBrace s then .next s
  else mbCommand mb 0x0010 (· == 16) s fun s =>
    let a := mbArg s mb 0 8
    let n := mbArg s mb 8 8
    if stageOf s ≠ 3 then refused s mb 0x0C (effMode s 0) []
    else match stagedRefusal s a n with
    | some r => notTaken (readStaged s a n) mb r
    | none =>
      let s := readStaged s a n
      let img := rtOf (rdBytes s a n)
      let s := { s with boot := { s.boot with slots := s.boot.slots.set 0 (some img) } }
      let s := (List.range 4).foldl (fun s i => armDog s (i + 1)) (setF s (modReg oCarBootStatus) 9 9 0)
      if !starts then setStage { s with boot := { s.boot with starting := some (s.ns, mb) } } 4
      else
        let s := setF (setStage s 5) (modReg oCarImageInfo) 31 0 img.version
        respond (beginRuntime s) mb stOk (natLe 4 img.version)

/-! ## Program control (R526, R527) -/

/-- An update or a STOP is in progress, so LOAD, START, STOP and UPDATE meet BUSY (R531). -/
def controlBusy (s : State) : Bool := s.boot.update.isSome || s.boot.stop.isSome

/-- The state code of the first core that is not in RESET, fenced ones aside (R525). -/
def firstState (s : State) : Nat := match (smKeys s.cores).find? fun c => (getCore s c).mode != .reset && !coreFenced s c with
  | some c => effMode s c
  | none => effMode s 0

/-- START's steps (R526). -/
def startProgram (s : State) (p : Program) (ts : Nat) : State :=
  let s := setF s (modReg oQtzCtl) 9 9 0
  let s := p.entries.foldl (fun s e => (coreCtlWrite s e.1 (BitVec.ofNat 64 (e.2 * 256 + 1))).2) s
  let s := p.starts.foldl (fun s e => (cluCtlWrite s e.1 (BitVec.ofNat 64 (e.2 * 65536 + 1))).2) s
  let s := setPace s 4
  { s with clk := { s.clk with armed := some ts } }

/-- START (R526): program instance id, and optionally a Quartz time. It waits for a hush to end. -/
def execStart (mb : Fin 4) (s : State) : Out :=
  if inBrace s || s.clk.kind == 1 || s.clk.kind == 2 then .next s
  else mbCommand mb 0x0013 (fun n => n == 4 || n == 12) s fun s =>
    if controlBusy s then respond s mb stBusy []
    else match s.boot.prog with
    | none => respond s mb stInvalidHandle []
    | some p =>
      let ts := if mbLen s mb = 12 then mbArg s mb 4 8 else quartz s + 10000000
      if p.id ≠ mbArg s mb 0 4 then respond s mb stInvalidHandle []
      else match p.fields.find? (fieldFenced s) with
      | some f => refused s mb 0x04 f []
      | none =>
        if !allReset s then refused s mb 0x0C (firstState s) []
        else if ts < quartz s + 5000000 then refused s mb 0x0D 0 []
        else respond (startProgram s p ts) mb stOk []

/-- STOP (R527): asks for a hush, after which the instance ends. -/
def execStop (mb : Fin 4) (s : State) : Out :=
  if inBrace s then .next s
  else mbCommand mb 0x0013 (· == 4) s fun s =>
    if controlBusy s then respond s mb stBusy []
    else match s.boot.prog with
    | none => respond s mb stInvalidHandle []
    | some p =>
      if p.id ≠ mbArg s mb 0 4 then respond s mb stInvalidHandle []
      else askHush { s with boot := { s.boot with stop := some { mb := mb, since := s.ns } } }

/-- Owner of a program instance's ranges (R327). -/
def progOwner (id : Nat) : Nat := 2 ^ 28 + id % 2 ^ 28

/-- The program instance ends: core reset, allocations freed, STOP answered (R527); the boost ceiling is the module's own
again (R35). -/
def endProgram (s : State) (a : Asked) : State :=
  let s := coreReset s
  let s := match s.boot.prog with | some p => freeOwner s (progOwner p.id) | none => s
  respond { s with boot := { s.boot with prog := none, stop := none }, clk := { s.clk with low := false } } a.mb stOk []

/-- HUSH_RESTART (R356, R358, R527, R528): with lock, rails and no reference switch in progress the hush ends. A STOP that asked for it ends
the instance in it, and an UPDATE goes on after it. -/
def execHushRestart (s : State) : Out :=
  if !mayRestart s then .next s
  else
    let t := s.clk.since
    let s := match s.boot.stop with
      | some a => if a.since ≤ t then endProgram s a else s
      | none => s
    let s := endHush s
    .next { s with boot := { s.boot with update := s.boot.update.map fun a => if a.since ≤ t then { a with ready := true } else a } }

/-- Withdraws firmware's request for a hush. -/
def dropHush (s : State) : State := setF s (modReg oClkHushCtl) 0 0 0

/-- NO_HUSH_WITHIN_1_S (R527, R528). -/
def execNoHushWithin1S (s : State) : Out :=
  let late (a : Asked) : Bool := !a.ready && !a.waits && decide (a.since + 1000000000 ≤ s.ns) && !inBrace s
  match s.boot.stop, s.boot.update with
  | some a, _ => if late a then .next (endProgram (dropHush s) a) else .next s
  | none, some a =>
    if late a then .next (refused (dropHush (setUpd { s with boot := { s.boot with update := none } } 0)) a.mb 0x0E 0 []) else .next s
  | none, none => .next s

/-! ## Live update (R528 to R531) -/

/-- The first open session whose features an image does not cover. -/
def uncovered (s : State) (feats : Nat) : Option Nat :=
  (List.range 4).find? fun m => match sessionOf s m with | some x => x.feats &&& feats != x.feats | none => false

/-- UPDATE (R528): steps 1 to 3. -/
def execUpdate (mb : Fin 4) (s : State) : Out :=
  if inBrace s then .next s
  else mbCommand mb 0x0011 (· == 16) s fun s =>
    let a := mbArg s mb 0 8
    let n := mbArg s mb 8 8
    if controlBusy s then respond s mb stBusy []
    else match stagedRefusal s a n with
    | some r => notTaken (readStaged s a n) mb r
    | none =>
      let s := readStaged s a n
      let img := rtOf (rdBytes s a n)
      match uncovered s img.feats with
      | some m => refused s mb 0x09 m []
      | none =>
        let w := match rtImage s with | some i => i.writes | none => 0
        if w < img.reads ∨ img.writes < w then refused s mb 0x0A 1 []
        else
          let s := setUpd { s with boot := { s.boot with slots := s.boot.slots.set (1 - rtSlot s) (some img)
                                                         update := some { mb := mb, since := s.ns } } } 2
          updateHush s

/-- The new image has taken over, after some microseconds: its acceptance stands in the record. -/
def takenOver (s : State) (mb us : Nat) : State :=
  let r := modReg oCarUpdateStatus
  let slot := 1 - rtSlot s
  let s := setF s (modReg oCarBootStatus) 9 9 slot
  let v := match rtImage s with | some i => i.version | none => 0
  let s := setF (setF (addF s r 63 48 1) r 31 16 us) (modReg oCarImageInfo) 31 0 v
  respond (setUpd { s with boot := { s.boot with update := none, takeover := none, handAccepted := true } } 4) mb stOk (natLe 4 v)

/-- Steps 4 and 5 of R528: the old image writes the handover record, and the new image starts. -/
def handOver (s : State) : State :=
  setUpd { s with boot := { s.boot with takeover := some s.ns, handover := handoverRecord s, handValid := true, handAccepted := false } } 3

/-- The image in the slot that an update fills can read the handover record (R529). -/
def recordReadable (s : State) : Bool := match s.boot.slots.getD (1 - rtSlot s) none with
  | some i => s.boot.handValid && (readHandover i s.boot.handover).isSome
  | none => false

/-- UPDATE_HANDOVER (R528): at the restart from the update's hush the old image writes the handover record and the new image
starts; `done` says after how many µs it has taken over, if it has. An image takes over only by a record that it can read. A
dip before the record is written makes the update wait (R531). -/
def execUpdateHandover (done : Option (Fin 2001)) (s : State) : Out :=
  match s.boot.update with
  | none => .next s
  | some a =>
    if !s.boot.power || !a.ready || !(updState s == 2 || updState s == 3) then .next s
    else
      let s := if updState s = 2 then handOver s else s
      match done with
      | some us => .next (if recordReadable s then takenOver s a.mb us else s)
      | none => .next s

/-- UPDATE_FAILBACK (R530): 1 the new image finds the record unreadable or its CRC wrong, as the record stands or, where the
operand says so, as the SRAM gave it (log 108); 2 takeover has not completed within 2 ms. The old image goes on from the record
it wrote, which says what State holds. -/
def execUpdateFailback (unreadable : Bool) (s : State) : Out :=
  match s.boot.takeover with
  | some t =>
    if unreadable || !recordReadable s then .next (failBack s 1)
    else if t + 2000000 ≤ s.ns then .next (failBack s 2) else .next s
  | none => .next s

/-! ## Memory and windows (R327, R328, R466, R472) -/

/-- A multiple of 64 KiB. -/
def isK64 (n : Nat) : Bool := n % k64 == 0

/-- A power of two. -/
def isPow2 (n : Nat) : Bool := n != 0 && 2 ^ n.log2 == n

/-- ALLOC (R327). -/
def execAlloc (mb : Fin 4) (s : State) : Out :=
  if inBrace s then .next s
  else mbCommand mb 0x0020 (· == 18) s fun s =>
    let f := mbArg s mb 0 1
    let z := mbArg s mb 1 1
    let size := mbArg s mb 2 8
    let al := mbArg s mb 10 8
    if (decide (64 ≤ f) && f != 0xFF) || decide (1 < z) || size == 0 || !isK64 size || !isK64 al || !isPow2 al then respond s mb stBadCommand []
    else match place s (allowed f) size al (ownerOf s mb) with
    | none => respond s mb stNoSpace []
    | some a =>
      let s := if z = 1 then zeroRange (fwTraffic s (allocAddr a) size) (allocAddr a) size else s
      respond (addAlloc s a) mb stOk (natLe 8 (handleOf a) ++ natLe 8 (allocAddr a))

/-- FREE (R328). -/
def execFree (mb : Fin 4) (s : State) : Out :=
  if inBrace s then .next s
  else mbCommand mb 0x0021 (· == 8) s fun s =>
    let (st, a) := freeStatus s (mbArg s mb 0 8) (ownerOf s mb)
    let s := freeProbe s st a
    let s := if st = stOk then (match a with | some a => dropAlloc s a | none => s) else freeRecord s st a
    respond s mb st []

/-- QP_SETUP (R464, R472): group, q, MTU code (3 to 5 for 1,024 B to 4,096 B), GID, QPN, initial PSNs. -/
def execQpSetup (mb : Fin 4) (s : State) : Out :=
  mbCommand mb 0x0030 (· == 31) s fun s =>
    let g := mbArg s mb 0 1
    let q := mbArg s mb 1 1
    let code := mbArg s mb 2 1
    if 32 ≤ g ∨ 64 ≤ q ∨ code < 3 ∨ 5 < code then respond s mb stBadCommand []
    else
      let p : QPair := ⟨g, q, 128 * 2 ^ code, rdBytes s (mbSlot s mb + 11) 16, mbArg s mb 19 4, (mbArg s mb 23 4, mbArg s mb 27 4)⟩
      respond { s with host := { s.host with qps := s.host.qps.filter (fun x => !(x.group == g && x.q == q)) ++ [p] } } mb stOk []

/-- QP_DESTROY (R472). -/
def execQpDestroy (mb : Fin 4) (s : State) : Out :=
  mbCommand mb 0x0031 (· == 2) s fun s =>
    let g := mbArg s mb 0 1
    let q := mbArg s mb 1 1
    let named (x : QPair) : Bool := x.group == g && x.q == q
    if s.host.qps.any named then
      respond { s with host := { s.host with qps := s.host.qps.filter fun x => !named x } } mb stOk []
    else respond s mb stInvalidHandle []

/-- The live allocation that a handle names. -/
def allocOfHandle (s : State) (h : Nat) : Option Alloc := s.host.allocs.find? fun a => handleOf a == h

/-- Opens window n on a range for a group. -/
def openWindow (s : State) (n : Nat) (w : RWin) (rights : Nat) : State :=
  let c := modReg (oSvcRwinCtl + 0x20 * n)
  let s := setReg s (modReg (oSvcRwinBase + 0x20 * n)) (BitVec.ofNat 64 (memBase w.field + w.lo))
  let s := setReg s (modReg (oSvcRwinSize + 0x20 * n)) (BitVec.ofNat 64 w.size)
  let rd := bitsOf rights 0 0
  let wr := bitsOf rights 1 1
  let gen := (getF s c 23 0 + 1) % 2 ^ 24
  let s := setReg s c (BitVec.ofNat 64 (2 ^ 63 + rd * 2 ^ 62 + wr * 2 ^ 61 + w.group * 2 ^ 56 + gen))
  let s := setWindow s (fieldReg w.field oSvcGwwin) 4 w.gw (w.lo / 4096 * 2 ^ 22 + (w.lo + w.size) / 4096 - 1)
    (2 ^ 63 + rd * 2 ^ 62 + wr * 2 ^ 61 + 2 ^ w.group)
  { s with host := { s.host with wins := s.host.wins ++ [w] } }

/-- WIN_OPEN (R466, R472). -/
def execWinOpen (mb : Fin 4) (s : State) : Out :=
  mbCommand mb 0x0032 (· == 26) s fun s =>
    let off := mbArg s mb 8 8
    let size := mbArg s mb 16 8
    let g := mbArg s mb 24 1
    let rights := mbArg s mb 25 1
    if !isK64 off || !isK64 size || size == 0 || decide (32 ≤ g) || decide (3 < rights) then respond s mb stBadCommand []
    else match allocOfHandle s (mbArg s mb 0 8) with
    | none => respond s mb stInvalidHandle []
    | some a =>
      let lo := a.off + off
      let st := rangeStatus s (ownerOf s mb) (memBase a.field + lo) size
      if fieldBytes < lo + size then respond s mb stInvalidHandle []
      else if st ≠ stOk then respond s mb st []
      else if fieldFenced s a.field then respond s mb stTargetFenced []
      else match (List.range 256).find? fun n => !(s.host.wins.any (·.n == n)), freeWindow s (fieldReg a.field oSvcGwwin) 4 with
      | some n, some gw =>
        let s := openWindow s n ⟨n, a.field, lo, size, g, gw⟩ rights
        respond s mb stOk (natLe 1 n ++ natLe 4 (n * 2 ^ 24 + getF s (modReg (oSvcRwinCtl + 0x20 * n)) 23 0))
      | _, _ => respond s mb stNoSpace []

/-- Steps 1 to 3 of a close (R466). -/
def closeWindow (s : State) (w : RWin) : State :=
  let c := modReg (oSvcRwinCtl + 0x20 * w.n)
  let s := setF (setF s c 63 63 0) c 23 0 (getF s c 23 0 + 1)
  setWindow s (fieldReg w.field oSvcGwwin) 4 w.gw 0 0

/-- Step 4: a close whose range has drained is answered. -/
def settleClose (s : State) (mb n : Nat) : State :=
  match s.host.wins.find? (·.n == n) with
  | none => s
  | some w =>
    let t := if fieldFenced s w.field then s else fwProbe s w.field w.lo w.size
    if 0 < overlapping s w.field w.lo w.size then t
    else respond { t with host := { t.host with wins := t.host.wins.filter (· ≠ w), closing := t.host.closing.filter (· ≠ (mb, n)) } } mb stOk []

/-- WIN_CLOSE (R466): the reply comes once the probe of the range reads 0. -/
def execWinClose (mb : Fin 4) (s : State) : Out :=
  if inBrace s then .next s
  else mbCommand mb 0x0033 (· == 1) s fun s =>
    let n := mbArg s mb 0 1
    match s.host.wins.find? fun w => w.n == n && winOpen s n with
    | none => respond s mb stInvalidHandle []
    | some w =>
      let s := closeWindow s w
      settleClose { s with host := { s.host with closing := s.host.closing ++ [(mb.val, n)] } } mb n

/-! ## Fence, checkpoint, faults, telemetry -/

/-- FENCE (R472): firmware fences a field or a cluster with cause 0x01. -/
def execFence (mb : Fin 4) (s : State) : Out :=
  mbCommand mb 0x0040 (· == 3) s fun s =>
    let f := mbArg s mb 0 1
    let c := mbArg s mb 1 2
    if 64 ≤ f ∨ (256 ≤ c ∧ c ≠ 0xFFFF) then respond s mb stBadCommand []
    else if c = 0xFFFF then respond (fldFenceWrite s f 0x0101#64) mb stOk []
    else respond (cluFenceWrite s (256 * f + c) 0x0101#64) mb stOk []

/-- CHECKPOINT (R440, R472): 0 arms a phase, 1 releases a hold. -/
def execCheckpoint (mb : Fin 4) (s : State) : Out :=
  mbCommand mb 0x0041 (· == 2) s fun s =>
    let r := modReg oModCkptCtl
    if mbArg s mb 0 1 = 0 then respond (ckptWrite s (BitVec.ofNat 64 (mbArg s mb 1 1 * 256 + 1))) mb stOk []
    else if mbArg s mb 0 1 = 1 then respond (ckptWrite s (BitVec.ofNat 64 (getF s r 15 8 * 256 + 2 + getF s r 0 0))) mb stOk []
    else respond s mb stBadCommand []

/-- A record of the log is a continuation. -/
def isCont (b : List Byte) : Bool := bitOf (b.getD 21 0#8).toNat 2

/-- Whole groups from the front of a list of records, at most `room` records. -/
def wholeGroups : Nat → Nat → List (List Byte) → List (List Byte)
  | 0, _, _ => []
  | n + 1, room, l => match l with
    | [] => []
    | h :: t =>
      let g := h :: t.takeWhile isCont
      if g.length ≤ room then g ++ wholeGroups n (room - g.length) (t.dropWhile isCont) else []

/-- FAULTS (R543). -/
def execFaults (mb : Fin 4) (s : State) : Out :=
  if inBrace s then .next s
  else mbCommand mb 0x0050 (· == 4) s fun s =>
    let next := nextSeq s
    let first := max (mbArg s mb 0 4) (next - 65536)
    let recs := (List.range (min 64 (next - first))).map fun i => rdBytes s (logAddr s + 32 * ((first + i) % 65536)) 32
    let skip := (recs.takeWhile isCont).length
    let out := wholeGroups 7 7 (recs.drop skip)
    let from_ := first + skip
    if 0 < next ∧ fieldFenced s (logAddr s / fieldBytes) then respond s mb stTargetFenced []
    else
      let read := max s.boot.faultsRead (from_ + out.length)
      let flog := if from_ + out.length = next ∧ out ≠ [] then s.boot.flog.map fun r => { r with unreported := false } else s.boot.flog
      let s := { s with boot := { s.boot with faultsRead := min read next, flog := flog } }
      respond s mb stOk (natLe 4 from_ ++ natLe 1 out.length ++ natLe 3 0 ++ out.flatten)

/-- The values of R474 in the order of its table: IDENT, STATE, the measurements, ALERT_STATUS, ALERT_MASK. -/
def telemetry (s : State) : List Byte :=
  let b (n : Nat) (o : Out) : List Byte := match o with | .next t => (match t.reply with | some r => r.data | none => []) | _ => List.replicate n 0
  let x := s.smb
  b 12 (execIdent true s) ++ b 1 (execState true s) ++ natLe 2 x.vin ++ natLe 2 x.iin ++ natLe 2 x.pin ++ natLe 2 x.pcap ++ natLe 8 x.energy ++
    natLe 2 x.holdup ++ natLe 2 x.tIn ++ natLe 2 x.tOut ++ natLe 2 x.tMax ++ natLe 2 x.alert ++ natLe 2 x.mask

/-- TELEMETRY (R472). -/
def execTelemetry (mb : Fin 4) (s : State) : Out :=
  mbCommand mb 0x0051 (· == 0) s fun s => respond s mb stOk (telemetry s)

end Sys2Proof.Machine
end

