-- ==== Sys2Proof/Machine/Verify.lean ====
section
/-! DEFINITION. Machine/Verify.lean: the loader's verifier (R563 to R565): the sources of a wait, the paths of a core's words,
the fixed intervals of one core, and the checks of R564 that one core, one steward or one register value decides. It works on
`t`, a module in RESET into which the image has been written. What rests on several cores or modules is left to
`Config.verifierRest` (log 101). -/
namespace Sys2Proof.Machine
open Sys2Proof

/-- What a check rejects (R564): check, core, tag, second tag. -/
structure Finding where
  check : Nat
  core : Nat
  tag : Nat
  other : Nat
  deriving DecidableEq, Repr

/-- A field of the results that does not apply. -/
def noValue : Nat := 0xFFFFFFFF

/-- Steps that a path of an image can take at the most: four loop counters of 32 bits, 256 words. -/
def pathMax : Nat := 2 ^ 136

/-! ## Paths (R563) -/

/-- The core stands at a word of a task with its loop counters at zero. -/
def atWord (t : State) (c task word : Nat) : State :=
  modCore { t with clocksOn := true } c fun x =>
    let y := { x with mode := .run, task := task, ended := false }
    setTask y { curTask y with pc := word, loops := [0#32, 0#32, 0#32, 0#32] }

/-- A word ends its path: a decision point, a step boundary or END. -/
def pathEnds (w : W256) : Bool := wDp w || wSb w || wLoopOp w == 5

/-- The next word lies in the task's range (R48). -/
def staysIn (t : State) (c : Nat) (w : W256) : Bool := match nextWord (getCore t c) w with
  | some n => decide (0 ≤ n) && decide (n < taskWords t c (getCore t c).task)
  | none => false

/-- The last word of the path from a place, with the core standing at it; none where it comes to no end. -/
def pathLast (c : Nat) : Nat → State → Option State
  | 0, _ => none
  | n + 1, t =>
    let w := curWord t c
    if pathEnds w || !staysIn t c w then some t else pathLast c n (loopStep t c w)

/-- The places at which the paths of an entry start: the entry itself, and the word after each step boundary, once. -/
def pathStarts (c : Nat) : Nat → List Nat → State → List State
  | 0, _, _ => []
  | n + 1, seen, t =>
    match pathLast c pathMax t with
    | some e =>
      let w := curWord e c
      let pc := (curTask (getCore e c)).pc
      if wSb w && !wDp w && wLoopOp w != 5 && staysIn e c w && !seen.contains pc then
        t :: pathStarts c n (pc :: seen) (loopStep e c w)
      else [t]
    | none => [t]

/-! ## Sources of a wait (R563) -/

/-- A completion signal of an MPUT or MSCATTER in the core's store counts into counter i. -/
def putSignals (t : State) (c i : Nat) : Bool :=
  (List.range 4).any fun k => taskValid t c k && (List.range (taskWords t c k)).any fun n =>
    let w := taskWord t c k n
    wSigEn w && wSigWhen w == 3 && wSigCtr w == i && (putNeeds (slotX w)).isSome

/-- Counter of a channel. -/
def chanCtr (t : State) (c ch : Nat) : Nat := getF t (coreReg c (oCoreChan + 8 * ch)) 61 57

/-- A receipt of a link, or a cell from one, counts into counter i of the core (R383, R385). -/
def linkSignals (t : State) (c i : Nat) : Bool :=
  (List.range 40).any fun l => (List.range 64).any fun q =>
    let r := lchReg l q
    (getB t r 63 && portCore l (getF t r 61 56) == c && chanCtr t c (getF t r 40 35) == i) ||
      (getB t r 29 && portCore l (getF t r 27 22) == c && chanCtr t c (getF t r 21 16) == i)

/-- A Garnet line that the image lets run in fallback counts into counter i. -/
def fallbackSignals (t : State) (c i : Nat) : Bool :=
  (List.range 8).any fun n => garMember t c n && getF t (garReg c n) 4 0 == i && getB t (modReg (oGarLineCtl + 8 * n)) 8

/-- A wait on counter i is variable: a source of it is a ring's fill counter, an MPUT or MSCATTER, a link, a line that may run
in fallback, or the counter is marked in CORE_CTR_EXT. -/
def variableWait (t : State) (c i : Nat) : Bool :=
  ((List.range 4).any fun k => ringEn t c k && ringCtr t c k == i) || putSignals t c i || linkSignals t c i ||
    fallbackSignals t c i || getB t (coreReg c oCoreCtrExt) i

/-- Counter i has a source in another unit: a receive channel, or a Garnet line. When such a source comes is no matter of this
core's words alone. -/
def foreignWait (t : State) (c i : Nat) : Bool :=
  ((List.range 64).any fun ch => (chanRole t c ch == 2 || chanRole t c ch == 3) && chanCtr t c ch == i) ||
    (List.range 8).any fun n => garMember t c n && getF t (garReg c n) 4 0 == i

/-- A word's wait ends the fixed interval before it, as far as one core shows. -/
def openWait (t : State) (c : Nat) (w : W256) : Bool :=
  wWaitEn w && (variableWait t c (wWaitCtr w) || foreignWait t c (wWaitCtr w))

/-! ## Fixed intervals of one core (R563) -/

/-- An engine's next command begins in this cycle, by the cycle tables; a bank conflict that its accesses make is a finding of
check 7. -/
def simBegin (c : Nat) (p : State × List Finding) (e : EngineId) : State × List Finding :=
  let t := p.1
  match nextBegin t c e with
  | none => p
  | some k =>
    let g := cmdTiming t c k t.cycle
    let x := getCore t c
    let sched := (accsOf t c k t.cycle).foldl addAccess x.sched
    let bad := (sched.filter fun a => a.lost && !a.told).map fun a =>
      (⟨7, c, a.tag.toNat, ((sched.find? fun b => meets a b && !b.lost).map fun b => b.tag.toNat).getD noValue⟩ : Finding)
    let t := modCore t c fun x =>
      setEngFree { x with cmds := updFirst (fun y => y == k) (fun y => { y with begun := some t.cycle, lastIn := g.lastIn, due := g.due }) x.cmds
                          sched := sched.map fun a => { a with told := a.lost }, ramp := (g.plan.getLast?.map (·.2)).getD g.ramp } e (g.lastIn + 1)
    (t, p.2 ++ bad)

/-- The end of a cycle: commands whose completion cycle it is complete with their signals, and counters become visible. -/
def simEnd (t : State) (c : Nat) : State :=
  let x := getCore t c
  let ended (k : Cmd) : Bool := k.begun.isSome && decide (k.due ≤ t.cycle)
  let adds := x.ctrAdd ++ (x.cmds.filter ended).filterMap fun k => k.sig.map fun g => (g.1, (g.2 : Int))
  let t := adds.foldl (fun t a => setCtr t c a.1 (ctrVal t c a.1 + BitVec.ofInt 16 a.2)) t
  let t := modCore t c fun x => { x with cmds := x.cmds.filter (fun k => !ended k), ctrAdd := []
                                         sched := x.sched.filter fun a => decide (t.cycle < a.cy) }
  { t with cycle := t.cycle + 1 }

/-- The commands of an interval run to their ends. -/
def simDrain (c : Nat) : Nat → State × List Finding → State × List Finding
  | 0, p => p
  | n + 1, p =>
    let q := [EngineId.matrix, .vector, .move, .send].foldl (simBegin c) p
    if (getCore q.1 c).cmds.isEmpty then q else simDrain c n (simEnd q.1 c, q.2)

/-- A word issues: its commands, signals and loop field. -/
def simIssue (t : State) (c : Nat) (w : W256) : State :=
  let ks := issueCmds t c w
  let t := modCore t c fun x => { x with cmds := x.cmds ++ ks, issIdx := x.issIdx + 1 }
  let t := if wSigEn w && wSigWhen w == 0 then ctrBump t c (wSigCtr w) (wSigInc w) else t
  let t := if wWaitEn w && wWaitCond w == 2 then ctrBump t c (wWaitCtr w) (-(wWaitVal w : Int)) else t
  loopStep t c w

/-- What a word's own encoding and operands show (checks 2, 4 and 15): an illegal part, a bound or an overlay beyond its range,
a hush point on a word that neither ends the step nor arrives on a line (R352). The address of an MPUT is not yet placed. -/
def wordFindings (t : State) (c : Nat) (w : W256) : List Finding :=
  let f (k : Nat) : Finding := ⟨k, c, (wTag w).toNat, noValue⟩
  (if (illegalPart t c w false).isSome then [f 2] else []) ++
    (if !overlayFits t c w || (match boundFail t c w with | some (_, none) => true | _ => false) then [f 4] else []) ++
    if wHp w && !wSb w && !wBarEn w then [f 15] else []

/-- What a word meets as it issues in its interval: a hazard (check 8), a full queue (check 5). -/
def issueFindings (t : State) (c : Nat) (w : W256) : List Finding :=
  (match hazardFail t c w with | some (_, o) => [⟨8, c, (wTag w).toNat, o.toNat⟩] | none => []) ++
    if (overrunFail t c w).isSome then [⟨5, c, (wTag w).toNat, noValue⟩] else []

/-- One path, cycle by cycle: a wait that ends the interval lets every command before it end first; a wait that the core's own
signals meet is met in the cycle that they bring. -/
def simPath (c : Nat) : Nat → State × List Finding → List Finding
  | 0, p => p.2
  | n + 1, p =>
    let busy (t : State) : Bool := !(getCore t c).cmds.isEmpty
    let w := curWord p.1 c
    if openWait p.1 c w && busy p.1 then simPath c n (simDrain c pathMax p)
    else
      let q := [EngineId.matrix, .vector, .move, .send].foldl (simBegin c) p
      if !openWait q.1 c w && !waitOk q.1 c w && busy q.1 then simPath c n (simEnd q.1 c, q.2)
      else
        let fs := q.2 ++ wordFindings q.1 c w ++ issueFindings q.1 c w
        let t := simIssue q.1 c w
        if pathEnds w || !staysIn q.1 c w then (simDrain c pathMax (simEnd t c, fs)).2 else simPath c n (simEnd t c, fs)

/-- The findings of a core: every path of each of its valid entries; a path without an end is check 14. -/
def coreFindings (t : State) (c : Nat) : List Finding :=
  ((List.range 16).filter (entryOk t c)).flatMap fun e =>
    let r := coreReg c (oCoreEntry + 8 * e)
    (pathStarts c 257 [] (atWord t c (getF t r 9 8) (getF t r 7 0))).flatMap fun u =>
      match pathLast c pathMax u with
      | some _ => simPath c pathMax (u, [])
      | none => [⟨14, c, (wTag (curWord u c)).toNat, noValue⟩]

/-! ## Stewards, registers and masks -/

/-- Steward words that may follow a word (R226). A JR goes where a JAL before it has come from. -/
def stewAfter (t : State) (k p : Nat) : List Nat :=
  let w := stewWord t k p
  let o := swOp w
  let next := (p + 1) % 4096
  if 0x20 ≤ o ∧ o ≤ 0x25 then [next, ((p : Int) + signedOf 14 (swImm w)).emod 4096 |>.toNat]
  else if o = 0x26 then [swImm w % 4096, next]
  else if o = 0x27 ∨ o = 0x2E then []
  else [next]

/-- The steward words reached from those of a list. -/
def stewReach (t : State) (k : Nat) : Nat → List Nat → List Nat → List Nat
  | 0, _, seen => seen
  | _, [], seen => seen
  | n + 1, p :: l, seen => if seen.contains p then stewReach t k n l seen else stewReach t k n (stewAfter t k p ++ l) (p :: seen)

/-- Check 2 of a steward's code: every word reached from its start word is legal. -/
def stewFindings (t : State) (s : Nat × Nat) : List Finding :=
  if (stewReach t s.1 16384 [s.2] []).all fun p => swLegal (stewWord t s.1 p) then [] else [⟨2, noValue, noValue, noValue⟩]

/-- The register that a relocation record patches. -/
def relocReg (r : Reloc) : Option Nat := match r.kind with
  | 0 => some (coreReg r.unit r.off)
  | 1 => some (cluReg r.unit r.off)
  | 2 => some (fieldReg r.unit r.off)
  | 3 => some (modReg r.off)
  | 4 => some (linkReg r.unit r.off)
  | _ => none

/-- Core of a register's address. -/
def coreOfReg (a : Nat) : Nat := match decodeAddr a with
  | some (.core c _) => c
  | _ => noValue

/-- Check 3: register values, in the image's order, that their registers refuse. Those that relocation patches are seen when
they are patched. -/
def regFindings (p : ImageParts) : List Finding :=
  (p.regs.foldl (fun (a : State × List Finding) r =>
    let bad := badValue a.1 r.1 r.2 && !p.relocs.any fun q => relocReg q == some r.1
    (loadReg a.1 r.1 r.2, if bad then a.2 ++ [⟨3, coreOfReg r.1, noValue, noValue⟩] else a.2)) (State.reset, [])).2

/-- Check 10: a link's readiness counter keeps its value at the realign (R384). -/
def readyFindings (t : State) : List Finding :=
  (List.range 40).flatMap fun l => (List.range 64).flatMap fun q =>
    let r := lchReg l q
    let c := portCore l (getF t r 61 56)
    if getB t r 63 && !getB t r 62 && getF t (coreReg c oCoreCtrMode) (2 * getF t r 45 41 + 1) (2 * getF t r 45 41) != 0 then [⟨10, c, noValue, noValue⟩] else []

/-- Check 13: the realign line's members are every core of the target, and no line has a member outside it (R252, R257). -/
def maskFindings (t : State) (fs : List Nat) : List Finding :=
  let all := fs.flatMap fun f => (List.range 256).flatMap fun k => (List.range 64).map fun i => coreOfClu (256 * f + k) i
  ((all.find? fun c => !garMember t c (realignLine t)).toList.map fun c => ⟨13, c, noValue, noValue⟩) ++
    ((List.range 8).flatMap fun n => ((garMembers t n).find? fun c => !fs.contains (fieldOfCore c)).toList.map fun c =>
      (⟨13, c, noValue, noValue⟩ : Finding))

/-- Check 14: an entry that the image starts is valid (R62). -/
def entryFindings (t : State) (p : ImageParts) : List Finding :=
  (p.entries.filter fun e => !entryOk t e.1 e.2).map fun e => ⟨14, e.1, noValue, noValue⟩

/-- Every finding that one core, one steward or one register value gives. -/
def findings (t : State) (p : ImageParts) (fs : List Nat) : List Finding :=
  regFindings p ++ ((p.code.map (·.1)).eraseDups.flatMap (coreFindings t)) ++ p.starts.flatMap (stewFindings t) ++
    readyFindings t ++ maskFindings t fs ++ entryFindings t p

/-- The verifier (R564): the first check, in order, that finds something. -/
def verify (t : State) (p : ImageParts) (fs : List Nat) (image : List Byte) : Option (Nat × Nat × Nat × Nat) :=
  let own := findings t p fs
  (List.range 18).findSome? fun k => match own.find? (·.check == k) with
    | some f => some (k, f.core, f.tag, f.other)
    | none => (Config.verifierRest image k).map fun r => (k, r.1, r.2.1, r.2.2)

end Sys2Proof.Machine
end

