-- ==== Sys2Proof/Machine/Load.lean ====
section
/-! DEFINITION. Machine/Load.lean: the loader service and relocation (R34, R35, R406, R408, R524, R525, R560 to R570). -/
namespace Sys2Proof.Machine
open Sys2Proof

/-! ## Checks 1 to 4 (R524) -/

/-- A section table entry: length, offset and CRC agree with the image (R561). -/
def sectionOk (l : List Byte) (i : Nat) : Bool :=
  let e := 128 + 16 * i
  let n := hdr l (e + 4) 4
  let o := hdr l (e + 8) 4
  decide (e + 16 ≤ l.length) && decide (o + n ≤ l.length) && crc32 ((l.drop o).take n) == hdr l (e + 12) 4

/-- Step 1: magic, format and check values. -/
def formatFail (l : List Byte) : Option (Nat × Nat) :=
  if l.length < 128 ∨ hdr l 0 4 ≠ 0x4B4C4347 then some (0x01, 0)
  else if hdr l 4 2 ≠ 4 ∧ hdr l 4 2 ≠ 5 then some (0x02, hdr l 4 2)
  else if sha384 (l.drop 128) != (l.drop 48).take 48 || !((List.range (hdr l 32 2)).all (sectionOk l)) then some (0x01, 0)
  else none

/-- Fields of an image's target. -/
def targetFields (l : List Byte) : List Nat :=
  if hdr l 11 1 = 0 then List.range 64
  else (List.range 64).filter fun f =>
    decide (hdr l 12 1 ≤ f % 8) && decide (f % 8 ≤ hdr l 13 1) && decide (hdr l 14 1 ≤ f / 8) && decide (f / 8 ≤ hdr l 15 1)

/-- A target's field bytes are one of R34's (R558, R560): all 64 fields, or a rectangle of the wafer's grid with the four
centre fields. -/
def targetBytesOk (l : List Byte) : Bool :=
  if hdr l 11 1 = 0 then hdr l 12 1 == 0 && hdr l 13 1 == 7 && hdr l 14 1 == 0 && hdr l 15 1 == 7
  else hdr l 11 1 == 1 && decide (hdr l 13 1 < 8) && decide (hdr l 15 1 < 8) &&
    ([27, 28, 35, 36] : List Nat).all (targetFields l).contains

/-- Domain shape of an image's target. -/
def targetShape (l : List Byte) : Nat × Nat × Nat := (hdr l 16 2, hdr l 18 2, hdr l 20 2)

/-- The module's position, as LNK_SELF_POS has it. -/
def selfPos (s : State) : Nat × Nat × Nat :=
  let r := modReg oLnkSelfPos
  (getF s r 19 15, getF s r 24 20, getF s r 29 25)

/-- LNK_DOMAIN_SHAPE of a shape. -/
def shapeWord (p : Nat × Nat × Nat) : Nat := (p.1 - 1) + 2 ^ 5 * (p.2.1 - 1) + 2 ^ 10 * (p.2.2 - 1)

/-- The domain shape is one of R34 and R406, agrees with a shape set before, and holds the module's position. -/
def shapeOk (s : State) (l : List Byte) : Bool :=
  let (x, y, z) := targetShape l
  let (px, py, pz) := selfPos s
  let held := getF s (modReg oLnkDomainShape) 14 0
  decide (1 ≤ x ∧ x ≤ 32 ∧ 1 ≤ y ∧ y ≤ 32 ∧ 1 ≤ z ∧ z ≤ 24 ∧ x * y * z ≤ 24576) &&
    (held == 0 || held == shapeWord (x, y, z)) && decide (px < x ∧ py < y ∧ pz < z) && (hdr l 11 1 == 0 || x * y * z == 1)

/-- Step 2: the configuration target (R34, R35). -/
def targetFail (s : State) (l : List Byte) : Option (Nat × Nat) :=
  let fs := targetFields l
  let g := hdr l 10 1
  if hdr l 8 2 ≠ 0x64 then some (0x03, 1)
  else if (g ≠ 1 ∧ g ≠ 2) ∨ (Config.gradeTwo ∧ g = 1) then some (0x03, 2)
  else if !targetBytesOk l then some (0x03, 3)
  else match fs.find? (fieldFenced s) with
  | some f => some (0x04, f)
  | none => if shapeOk s l then none else some (0x03, 4)

/-- Bit i of an image's flags. -/
def imageFlag (l : List Byte) (i : Nat) : Bool := bitOf (hdr l 6 2) i

/-! ## Step 5: placement and relocation (R566 to R568) -/

/-- Places tensors in order; with ranges to keep it takes those, which must agree. The result lists the ranges in order, or
names the field on which it failed. -/
def placeAll (owner : Nat) : List Tensor → Option (List Alloc) → State → List Alloc → Except Nat (State × List Alloc)
  | [], some (a :: _), _, _ => .error a.field
  | [], _, s, out => .ok (s, out)
  | t :: ts, some (a :: held), s, out =>
    if (t.field = a.field ∨ t.field = 0xFF) ∧ t.size = a.size then placeAll owner ts (some held) s (out ++ [a]) else .error a.field
  | t :: _, some [], _, _ => .error t.field
  | t :: ts, none, s, out =>
    match place s (if t.field = 0xFF then List.range 64 else [t.field]) t.size t.align owner with
    | some a =>
      let s := if t.zero then zeroRange (fwTraffic s (allocAddr a) t.size) (allocAddr a) t.size else s
      placeAll owner ts none (fwStore (addAlloc s a) (allocAddr a) t.data) (out ++ [a])
    | none => .error t.field

/-- Address of a tensor, or an overlay segment, by its id. -/
def tensorAddr (ts : List Tensor) (as : List Alloc) (id : Nat) : Option Nat :=
  ((ts.zip as).find? fun p => p.1.id == id).map fun p => allocAddr p.2

/-- A symbol's value (R568). -/
def symbolOf (s : State) (p : ImageParts) (as : List Alloc) (r : Reloc) : Option Nat :=
  if r.sym = 1 then tensorAddr p.tensors as r.id
  else if r.sym = 2 then some (taskTbase s r.unit r.id)
  else if r.sym = 3 then
    let x := (r.unit % 1024 : Int) + signedOf 16 (bitsOf r.id 15 0)
    let y := (r.unit / 1024 : Int) + signedOf 16 (bitsOf r.id 31 16)
    if 0 ≤ x ∧ x < 1024 ∧ 0 ≤ y ∧ y < 1024 then some (1024 * y.toNat + x.toNat) else none
  else if r.sym = 4 then some (taskIbase s r.unit r.id)
  else if r.sym = 5 then tensorAddr p.overlays (as.drop p.tensors.length) r.id
  else none

/-- The field that a record concerns. -/
def relocField (r : Reloc) : Nat := match r.kind with
  | 1 => r.unit / 256 | 2 => r.unit | 3 => 0 | 4 => linkField r.unit | _ => fieldOfCore r.unit

/-- Puts a value into bits of n bytes of memory. -/
def patchBytes (s : State) (a n lo width v : Nat) : State := wrNat s a n (setBitsOf (rdNat s a n) (lo + width - 1) lo v)

/-- Patches a record's target (R567). -/
def patchTarget (s : State) (r : Reloc) (v : Nat) : State :=
  let hi := r.lo + r.width - 1
  match r.kind with
  | 0 => setF s (coreReg r.unit r.off) hi r.lo v
  | 1 => setF s (cluReg r.unit r.off) hi r.lo v
  | 2 => setF s (fieldReg r.unit r.off) hi r.lo v
  | 3 => setF s (modReg r.off) hi r.lo v
  | 4 => setF s (linkReg r.unit r.off) hi r.lo v
  | 5 => patchBytes s (imemAddr r.unit r.off) 32 r.lo r.width v
  | 6 => patchBytes s (stewMem r.unit r.off) 8 r.lo r.width v
  | _ => patchBytes s (coreBase r.unit + r.off) 8 r.lo r.width v

/-- One relocation; it names a field where the value does not fit. -/
def relocate (p : ImageParts) (as : List Alloc) (s : State) (r : Reloc) : Except Nat State :=
  match symbolOf s p as r with
  | none => .error (relocField r)
  | some sym =>
    let v := ((sym : Int) + r.addend) >>> r.shift
    if 0 ≤ v ∧ v < 2 ^ r.width then .ok (patchTarget s r v.toNat) else .error (relocField r)

/-- Every relocation, in order. -/
def relocateAll (p : ImageParts) (as : List Alloc) : List Reloc → State → Except Nat State
  | [], s => .ok s
  | r :: rs, s => match relocate p as s r with
    | .ok s => relocateAll p as rs s
    | .error f => .error f

/-! ## Step 6: what the loader writes (R108, R569) -/

/-- The cores' combiners are emptied, and the writes of other masters that wait are made, before the loader writes: every
core is in RESET. -/
def settleTiles (s : State) (fs : List Nat) : State :=
  ((smKeys s.cores).filter fun c => fs.contains (fieldOfCore c) && !coreFenced s c).foldl (fun s c =>
    let x := getCore s c
    let s := x.comb.foldl (fun s e => wrRowRaw s c e.row e.bytes) s
    let s := x.bgw.foldl (fun s w => wrRowRaw s c w.row w.bytes) s
    modCore s c fun x => { x with comb := [], combKept := [], bgw := [] }) s

/-- A task's tile-store base when the loader may move it (R107, R566): by a multiple of 64 rows that keeps the range in the
store, which one the spec leaves to the loader (a free value, log 124). -/
def movedTs (d : Nat) (v : W64) : W64 :=
  let base := (bitsOf v.toNat 10 0 + 64 * (d % 24)) % 1536
  if base + bitsOf v.toNat 26 16 ≤ 1536 then BitVec.ofNat 64 (setBitsOf v.toNat 10 0 base) else v

/-- A register that an image names (R561, R566). -/
def partReg (p : ImageParts) (s : State) (r : Nat × W64) : State :=
  match decodeAddr r.1 with
  | some (.core _ o) => match inArr o (0x18000 + oCoreTaskTs) 8 4 with
    | some _ => match p.moves with
      | some f => loadReg s r.1 (movedTs (f r.1 (getReg s (modReg oModFieldFenced))) r.2)
      | none => loadReg s r.1 r.2
    | none => loadReg s r.1 r.2
  | _ => loadReg s r.1 r.2

/-- The tile stores of the target's cores read as zero. -/
def clearTiles (s : State) (fs : List Nat) : State :=
  { s with mem := s.mem.filter fun c => match decodeAddr c.1 with
    | some (.core k o) => !(decide (o < 0xC000) && fs.contains (fieldOfCore k))
    | _ => true }

/-- Code, steward memories, registers, initial rows. -/
def writeParts (s : State) (p : ImageParts) (fs : List Nat) (restore : Bool) : State :=
  let s := p.regs.foldl (partReg p) (settleTiles s fs)
  let s := p.code.foldl (fun s c => wrBytes s (imemAddr c.1 c.2.2.1) c.2.2.2) s
  let s := p.stewards.foldl (fun s c => wrBytes s (stewMem c.1 0) c.2) s
  if restore then s
  else p.rows.foldl (fun s r => wrBytes s (tileAddr r.1 (taskTbase s r.1 r.2.1 + r.2.2.1) 0) r.2.2.2) (clearTiles s fs)

/-- The sections of an image as they concern this module (R561). -/
def imageParts (s : State) (l : List Byte) : ImageParts :=
  let pos := selfPos s
  let sh := targetShape l
  Config.imageParts l (pos.1 + sh.1 * (pos.2.1 + sh.2.1 * pos.2.2))

/-- Steps 1 to 4: reason, detail, and further results (R524, R525, R564). Twin mode, asked for or already set in
MOD_TWIN_CTL, requires the exact-mode mark (R8). -/
def loadFail (s : State) (l : List Byte) (twin : Nat) : Option (Nat × Nat × List Byte) :=
  match formatFail l, targetFail s l with
  | some (r, d), _ => some (r, d, [])
  | none, some (r, d) => some (r, d, [])
  | none, none =>
    if (twin ≠ 0 ∨ getB s (modReg oModTwinCtl) 0) ∧ !imageFlag l 0 then some (0x05, 0, [])
    else if 8 ≤ hdr l 6 2 ∨ (hdr l 4 2 = 4 ∧ imageFlag l 2) ∨ hdr l 34 6 ≠ 0 ∨ hdr l 96 32 ≠ 0 then
      some (0x06, 1, natLe 4 0xFFFFFFFF ++ natLe 4 0xFFFFFFFF ++ natLe 4 0xFFFFFFFF)
    else match verify (writeParts State.reset (imageParts s l) (targetFields l) false) (imageParts s l) (targetFields l) l with
    | some (k, c, t, u) => some (0x06, k, natLe 4 c ++ natLe 4 t ++ natLe 4 u)
    | none => none

/-- A coordinate one hop on. -/
def hop (x n : Nat) (up : Bool) : Nat := if up then (x + 1) % n else (x + n - 1) % n

/-- Coordinates of the neighbour in a direction (R407). -/
def neighbourPos (p q : Nat × Nat × Nat) (d : Nat) : Nat × Nat × Nat :=
  let up := d % 2 == 0
  if d < 2 then (hop p.1 q.1 up, p.2.1, p.2.2)
  else if d < 4 then (p.1, hop p.2.1 q.2.1 up, p.2.2) else (p.1, p.2.1, hop p.2.2 q.2.2 up)

/-- Directions that a shape uses. -/
def shapeDirs (q : Nat × Nat × Nat) : List Nat :=
  (List.range 6).filter fun d => decide (1 < (if d < 2 then q.1 else if d < 4 then q.2.1 else q.2.2))

/-- LNK_PEER_EXPECT of the used links (R408). -/
def writePeers (s : State) (p q : Nat × Nat × Nat) : State :=
  let dom := getF s (modReg oLnkSelfPos) 47 32
  (shapeDirs q).foldl (fun s d =>
    let (x, y, z) := neighbourPos p q d
    (List.range 6).foldl (fun s i =>
      setReg s (linkReg (6 * d + i) oLnkPeerExpect)
        (BitVec.ofNat 64 (2 ^ 63 + dom * 2 ^ 32 + z * 2 ^ 25 + y * 2 ^ 20 + x * 2 ^ 15 + 6 * (d ^^^ 1) + i))) s) s

/-- LNK_GUARD of every tensor link that is UP (R391, R400, R569); D is in 1/256 ns. -/
def writeGuards (s : State) (mins : List (Nat × Nat)) : State :=
  ((List.range 40).filter fun l => lnkState s (engineOf s l) == 3).foldl (fun s l =>
    let d := getF s (linkReg (engineOf s l) oLnkDelay) 31 0
    let need := (2 * d + 255) / 256 + 50
    let g := ((mins.filter (·.1 == l)).map (·.2)).foldl max need
    setF s (linkReg l oLnkGuard) 15 0 (alignUp g 10)) s

/-- GAR_FBEXPn_g: members of each fallback group of each line. -/
def writeGroups (s : State) : State :=
  (List.range 8).foldl (fun s n =>
    let gs := (garMembers s n).map fun c => getF s (garReg c n) 9 6
    (List.range 16).foldl (fun s g => setF s (modReg (oGarFbexpG + 0x80 * n + 8 * g)) 20 0 (gs.filter (· == g)).length) s) s

/-- The values that no relocation record carries (R569). -/
def writeLoaderRegs (s : State) (l : List Byte) (seed : Nat) (mins : List (Nat × Nat)) : State :=
  let q := targetShape l
  let p := selfPos s
  let index := p.1 + q.1 * (p.2.1 + q.2.1 * p.2.2)
  let s := loadReg s (modReg oModRngSeed) (mix64 (BitVec.ofNat 64 seed ^^^ mix64 (BitVec.ofNat 64 (index + 1))))
  let s := setF (setF s (modReg oLnkSelfPos) 14 0 index) (modReg oLnkDomainShape) 14 0 (shapeWord q)
  let s := writeGuards (writePeers s p q) mins
  let h := q.1 / 2 + q.2.1 / 2 + q.2.2 / 2
  let s := setF s (modReg oLnkSlipCtl) 15 8 ((3 * h + 9) / 10 + 2)
  let c := modReg oLnkStepCtl
  let s := setF (setF s c 0 0 (imageFlag l 1).toNat) c 1 1 (imageFlag l 2).toNat
  let s := setF (if imageFlag l 1 then setF s c 23 16 (hdr l 22 2) else s) c 7 2 ((shapeDirs q).map (2 ^ ·)).sum
  let s := setF s (modReg oLnkStepPeriod) 39 0 (hdr l 24 8)
  let s := (List.range 6).foldl (fun s d => setF s (modReg oLnkStepStatus) (4 * d + 3) (4 * d) (modGen s)) s
  writeGroups s

/-- What LOAD asks for. -/
structure LoadReq where
  addr : Nat
  len : Nat
  seed : Nat
  twin : Nat
  restore : Bool
  keep : Bool
  deriving DecidableEq, Repr

/-- Steps 5 to 7 and the idle hush (R524, R570): the module with the program, or the field on which placement failed. -/
def loadProgram (s : State) (q : LoadReq) (l : List Byte) : Except Nat (State × Nat) :=
  let parts := imageParts s l
  let fs := targetFields l
  let id := match s.boot.prog with | some p => p.id | none => s.boot.nextId
  let held := if q.keep then some (match s.boot.prog with | some p => p.ranges | none => []) else none
  match placeAll (progOwner id) (parts.tensors ++ parts.overlays) held s [] with
  | .error f => .error f
  | .ok (s, as) => match relocateAll parts as parts.relocs (writeParts s parts fs q.restore) with
    | .error f => .error f
    | .ok s =>
      let s := writeLoaderRegs s l q.seed parts.guards
      let s := if q.twin = 0 then s else setF (setReg s (modReg oModTwinPartner) (BitVec.ofNat 64 q.twin)) (modReg oModTwinCtl) 0 0 1
      let p : Program := { id := id, image := hdr l 48 8, exact := imageFlag l 0, addr := q.addr, entries := parts.entries
                           starts := parts.starts, fields := fs, draw := parts.draw.getD 16000, ranges := as }
      let next := if s.boot.prog.isSome then s.boot.nextId else (s.boot.nextId + 1) % 2 ^ 32
      let s := { s with boot := { s.boot with prog := some p, nextId := next }
                        clk := { s.clk with low := !Config.gradeTwo && hdr l 10 1 == 2 } }
      .ok (hushStop s 2, id)

/-- Status of the range that LOAD reads, or of what it meets there (R524). -/
def loadRange (s : State) (owner : Nat) (q : LoadReq) : Nat :=
  let st := rangeStatus s owner q.addr q.len
  if q.len = 0 ∨ 0x10000000000 < q.addr + q.len then stInvalidHandle
  else if st ≠ stOk then st
  else if fieldFenced s (q.addr / fieldBytes) then stTargetFenced
  else if rangePoisoned s q.addr q.len then stPoisoned
  else stOk

/-- Reason 0x08 or 0x0C, where LOAD is not allowed in the present state. -/
def loadBlocked (s : State) (q : LoadReq) : Option (Nat × Nat) :=
  match s.boot.prog with
  | some p => if q.keep then (if allReset s then none else some (0x0C, firstState s)) else some (0x08, p.id % 65536)
  | none => if allReset s then none else some (0x0C, firstState s)

/-- LOAD (R524, R570). It waits for a hush to end. -/
def execLoad (mb : Fin 4) (s : State) : Out :=
  if inBrace s || s.clk.kind == 1 || s.clk.kind == 2 then .next s
  else mbCommand mb 0x0012 (· == 36) s fun s =>
    let flags := mbArg s mb 32 4
    let q : LoadReq := ⟨mbArg s mb 0 8, mbArg s mb 8 8, mbArg s mb 16 8, mbArg s mb 24 8, bitOf flags 0, bitOf flags 1⟩
    let st := loadRange s (ownerOf s mb) q
    if 4 ≤ flags then respond s mb stBadCommand []
    else if controlBusy s then respond s mb stBusy []
    else match loadBlocked s q with
    | some (r, d) => refused s mb r d []
    | none =>
      if st ≠ stOk then respond (if st = stPoisoned ∨ st = stTargetFenced then fwRead s q.addr q.len else s) mb st []
      else
        let s := fwRead s q.addr q.len
        let l := rdBytes s q.addr q.len
        match loadFail s l q.twin with
        | some (r, d, more) => refused s mb r d more
        | none => match loadProgram s q l with
          | .error f => refused s mb 0x07 f []
          | .ok (t, id) => respond t mb stOk (natLe 4 id)

end Sys2Proof.Machine
end

