-- ==== Sys2Proof/Machine/Vector.lean ====
section
/-! DEFINITION. Machine/Vector.lean: what a vector command computes (R188 to R216): lanes, reductions, special
functions, conversions, MX blocks and summaries. The meanings of the commands are one definition each in VectorOps.lean. -/
namespace Sys2Proof.Machine
open Sys2Proof

/-- Bits of a Boolean result of a compare (R196). -/
def boolLane (b : Bool) : W32 := if b then 0xFFFFFFFF#32 else 0#32

/-- The result of a lane-wise operation on its sources, with its flags; `r` is the lane's draw (R196, R197, R206). -/
def laneOp (op : VOp) (rnd : Rnd) (imm : BitVec 16) (r v l : Nat) (a b c : W32) : W32 × ArithFlags :=
  match op with
  | .vadd => fadd a b rnd r
  | .vsub => fsub a b rnd r
  | .vmul => fmul a b rnd r
  | .vfma => ffma a b c rnd r
  | .vfnma => ffnma a b c rnd r
  | .vmax => (fmax a b, flags0)
  | .vmin => (fmin a b, flags0)
  | .vabs => (fabs a, flags0)
  | .vneg => (fneg a, flags0)
  | .vcmpeq => (boolLane (feq a b), flags0)
  | .vcmplt => (boolLane (flt a b), flags0)
  | .vcmple => (boolLane (fle a b), flags0)
  | .vcmpne => (boolLane (!feq a b), flags0)
  | .vdrop => if r / 2 ^ 16 < imm.toNat then (0#32, flags0) else fmul a b rnd r
  | .vrand => enc32 (.fin false (r / 2 ^ 8) (-24)) .rne 0
  | .viadd => (a + b, flags0)
  | .visub => (a - b, flags0)
  | .vimul => (a * b, flags0)
  | .vand => (a &&& b, flags0)
  | .vor => (a ||| b, flags0)
  | .vxor => (a ^^^ b, flags0)
  | .vshl => (a <<< (b.toNat % 32), flags0)
  | .vshr => (a >>> (b.toNat % 32), flags0)
  | .vsra => (a.sshiftRight (b.toNat % 32), flags0)
  | .vimax => (if b.slt a then a else b, flags0)
  | .vimin => (if a.slt b then a else b, flags0)
  | .viota => (imm.signExtend 32 + BitVec.ofNat 32 (16 * v + l), flags0)
  | .spec f pre =>
    let (x, nan) := if pre then prescale a b c else (a, false)
    let y := specVal f x
    let g := specFlags f x y
    (y, { g with invalid := g.invalid || nan })
  | _ => (a, flags0)

/-- Node function of VRSUM: every addition rounds by rnd, with the draw of the node's lane (R197). -/
def sumNode (rnd : Rnd) (draws : Nat → Nat) (lvl k : Nat) (a b : W32) : W32 × ArithFlags :=
  fadd a b rnd (draws (treeDrawLane lvl k))

/-- Node function of VRMAX (R197). -/
def maxNode (_lvl _k : Nat) (a b : W32) : W32 × ArithFlags := (fmax a b, flags0)

/-- The 16 lane results of an operation on 16 lanes of sources, inactive lanes given as the identity in a reduction. -/
def vecResults (op : VOp) (rnd : Rnd) (imm : BitVec 16) (draws : Nat → Nat) (v : Nat) (act : Nat → Bool)
    (a b c : List W32) : List (W32 × ArithFlags) :=
  let at_ (l : List W32) (i : Nat) := l.getD i 0#32
  let spread (n : Nat) (o : List W32 × ArithFlags) := (List.range 16).map fun i => (at_ o.1 (i / n), flags0)
  match op with
  | .vperm => (List.range 16).map fun l => (at_ a ((at_ b l).toNat % 16), flags0)
  | .vtrn4 => (List.range 16).map fun l => (at_ a (4 * (l % 4) + l / 4), flags0)
  | .vrsum4 => spread 4 (treeReduce (sumNode rnd draws) 2 1 ((List.range 16).map fun l => if act l then at_ a l else 0x80000000#32))
  | .vrmax4 => spread 4 (treeReduce maxNode 2 1 ((List.range 16).map fun l => if act l then at_ a l else ninf32))
  | .vrsum16 => spread 16 (treeReduce (sumNode rnd draws) 4 1 ((List.range 16).map fun l => if act l then at_ a l else 0x80000000#32))
  | .vrmax16 => spread 16 (treeReduce maxNode 4 1 ((List.range 16).map fun l => if act l then at_ a l else ninf32))
  | _ => (List.range 16).map fun l => laneOp op rnd imm (draws l) v l (at_ a l) (at_ b l) (at_ c l)

/-- The flags of the additions of a reduction (R195): set by its nodes, not by lanes. -/
def treeFlags (op : VOp) (rnd : Rnd) (draws : Nat → Nat) (act : Nat → Bool) (a : List W32) : ArithFlags :=
  let ins := (List.range 16).map fun l => if act l then a.getD l 0#32 else 0x80000000#32
  match op with
  | .vrsum4 => (treeReduce (sumNode rnd draws) 2 1 ins).2
  | .vrsum16 => (treeReduce (sumNode rnd draws) 4 1 ins).2
  | _ => flags0

/-- Flags of a list of lanes, active lanes only (R195). -/
def activeFlags (act : Nat → Bool) (fs : List ArithFlags) : ArithFlags :=
  (fs.zip (List.range 16)).foldl (fun g (f, l) => if act l then orFlags g f else g) flags0

/-- Writes the 16 lanes of a result: active lanes their value, inactive lanes nothing (keep) or zero bits (zero). -/
def putLanes (s : State) (c : Nat) (k : Cmd) (d : VDesc) (v : Nat) (msk : Nat) (act : Nat → Bool) (xs : List Nat) : State :=
  putElems s c k d v (((xs.zip (List.range 16)).filter fun (_, l) => act l || msk == 2).map fun (x, l) => (l, if act l then x else 0))

/-- One vector of a lane-wise, permuting or reducing command (R193 to R197). -/
def vecOne (s : State) (c : Nat) (k : Cmd) (x : VxCmd) (v : Nat) : State :=
  let (ua, ub, uc) := vSrcs x.op
  let d := vdesc s c x.dst
  let da := vdesc s c x.da
  let db := vdesc s c x.db
  let dc := vdesc s c x.dc
  let ty := vLaneIn x.op
  let lane (u : Bool) (y : VDesc) (t : LaneTy) := (List.range 16).map fun l => if u then srcLane s c k t y v l else (0#32, flags0)
  let a := lane ua da ty
  let b := if x.bImm then (List.range 16).map (fun _ => (immLane ty x.imm, flags0)) else lane ub db (if x.op = .vperm then .int else ty)
  let e := lane uc dc ty
  let act := laneActive s c k x v
  let dr := cmdDraw c k v
  let rnd := if wideDst d then x.rnd else .rne
  let res := vecResults x.op rnd x.imm dr v act (a.map (·.1)) (b.map (·.1)) (e.map (·.1))
  let out := (res.zip (List.range 16)).map fun (r, l) =>
    if d.kind = 0 then (r.1.toNat, flags0) else encLane (vfmt d) (vLaneOut x.op) r.1 x.rnd x.sat (dr l)
  let fl := orFlags (orFlags (activeFlags act (a.map (·.2))) (orFlags (activeFlags act (b.map (·.2))) (activeFlags act (e.map (·.2)))))
    (orFlags (orFlags (activeFlags act (res.map (·.2))) (treeFlags x.op rnd dr act (a.map (·.1)))) (activeFlags act (out.map (·.2))))
  let blk := orFlags (if ua then srcBlockFlags s c da v else flags0)
    (orFlags (if ub && !x.bImm then srcBlockFlags s c db v else flags0) (if uc then srcBlockFlags s c dc v else flags0))
  putLanes (setArith s c (orFlags fl blk)) c k d v x.msk act (out.map (·.1))

/-- The format that VCVT and VCVTP convert to (R194, R199). -/
def cvtTarget (d : VDesc) : Fmt := vfmt d

/-- One vector of VCVT (R199): the value rounds once from the source to the target. -/
def cvtOne (s : State) (c : Nat) (k : Cmd) (x : VxCmd) (v : Nat) : State :=
  let d := vdesc s c x.dst
  let da := vdesc s c x.da
  let act := laneActive s c k x v
  let out := (List.range 16).map fun l => encodeVal (cvtTarget d) (srcVal s c k da v l) x.rnd x.sat (cmdDraw c k v l)
  putLanes (setArith s c (orFlags (activeFlags act (out.map (·.2))) (srcBlockFlags s c da v))) c k d v x.msk act (out.map (·.1))

/-- One vector of VCVTP (R200): 16 partials from six rows, rounded with window base imm16[7:0]. -/
def cvtpOne (s : State) (c : Nat) (k : Cmd) (x : VxCmd) (v : Nat) : State :=
  let d := vdesc s c x.dst
  let da := vdesc s c x.da
  let row := k.tbase + (vpos da v).toNat
  let rows := (List.range 6).map fun i => cmdRow s c k (row + i) (cmdCycle k (6 * v + i))
  let act := laneActive s c k x v
  let wbase := signedOf 8 (x.imm.toNat % 256)
  let pl (l : Nat) := partialOf rows (if da.lstride then l else da.elem % 16)
  let out := (List.range 16).map fun l => encodeVal (cvtTarget d) (partialVal (pl l) wbase) x.rnd x.sat (cmdDraw c k v l)
  putLanes (setArith s c (activeFlags act (out.map (·.2)))) c k d v x.msk act (out.map (·.1))

/-- Packs 32 elements of an MX format into the bytes of a row (R87): 24 bytes and 8 zero bytes, or 16 bytes. -/
def packMx (f : Fmt) (es : List Nat) : List Byte :=
  let w := fmtBits f
  let x := (es.reverse).foldl (fun acc e => acc * 2 ^ w + e) 0
  if w = 6 then natLe 24 x ++ List.replicate 8 0 else natLe 16 x

/-- What block q of a VMXQ quantizes to (R201, R138): scale byte, elements, flags. -/
def mxqBlock (s : State) (c : Nat) (k : Cmd) (x : VxCmd) (q : Nat) : Nat × List Nat × ArithFlags :=
  let da := vdesc s c x.da
  let ins := (List.range 32).map fun e => srcLane s c k .fp da (2 * q + e / 16) (e % 16)
  let draws := (List.range 32).map fun e => cmdDraw c k (2 * q + e / 16) (e % 16)
  let (sc, es, fl) := mxQuantize ((fmtParams (vfmt (vdesc s c x.dst))).getD fp32Params) (ins.map fun i => dec32 i.1) x.rnd draws
  let fl := ins.foldl (fun g i => orFlags g i.2) fl
  (sc, es, orFlags fl (orFlags (srcBlockFlags s c da (2 * q)) (srcBlockFlags s c da (2 * q + 1))))

/-- Block q of VMXQ: its element row, with its flags (R201, R204). -/
def mxqElems (s : State) (c : Nat) (k : Cmd) (x : VxCmd) (q : Nat) : State :=
  let d := vdesc s c x.dst
  let (_, es, fl) := mxqBlock s c k x q
  cmdWrite (setArith s c fl) c k (k.tbase + (vpos d q).toNat)
    (partRow (if vfmt d = .e2m1 then 8 * d.part else 0) (packMx (vfmt d) es)) (cmdCycle k (7 + 2 * q))

/-- Block q of VMXQ: its scale byte, one cycle later (R201, R204). -/
def mxqScale (s : State) (c : Nat) (k : Cmd) (x : VxCmd) (q : Nat) : State :=
  cmdWrite s c k (k.tbase + x.imm.toNat / 32) (partRow (x.imm.toNat % 32 + q) [BitVec.ofNat 8 (mxqBlock s c k x q).1])
    (cmdCycle k (8 + 2 * q))

/-- Vector v of VMXD (R202): half of block v / 2, with the scale applied. -/
def mxdOne (s : State) (c : Nat) (k : Cmd) (x : VxCmd) (v : Nat) : State :=
  let q := v / 2
  let da := vdesc s c x.da
  let f := vfmt da
  let bytes := (cmdRow s c k (k.tbase + (vpos da q).toNat) (cmdCycle k (2 * q))).drop (if f = .e2m1 then 8 * da.part else 0)
  let sc := ((cmdRow s c k (k.tbase + x.imm.toNat / 32) (cmdCycle k (2 * q))).getD (x.imm.toNat % 32 + q) 0).toNat
  let out := (List.range 16).map fun l =>
    encodeVal .fp32 (scaleVal (decodeElem f (elemOf f bytes (16 * (v % 2) + l))) sc) x.rnd x.sat (cmdDraw c k v l)
  putLanes (setArith s c (out.foldl (fun g o => orFlags g o.2) flags0)) c k (vdesc s c x.dst) v 0 (fun _ => true) (out.map (·.1))

/-! ## Summaries (R213 to R216) -/

/-- Does the source count as FP32 in the zero test (R216)? -/
def fp32Source (d : VDesc) : Bool :=
  d.kind == 1 || (d.kind == 0 && d.fmt == 8) || (d.kind == 2 && (fmtParams (vfmt d)).isSome)

/-- The zero test of R216. -/
def nonZero (d : VDesc) (x : W32) : Bool := decide (x ≠ 0#32) && !(fp32Source d && decide (x = 0x80000000#32))

/-- The lanes of a summary's source: FP32 lanes for a source that counts as FP32 or a summary of FP32 lane type, INT32 bits
otherwise. -/
def summLane (s : State) (c : Nat) (k : Cmd) (op : VOp) (d : VDesc) (v l : Nat) : W32 :=
  let fp := op = .vsums ∨ op = .vmaxs ∨ fp32Source d = true
  (srcLane s c k (if fp then .fp else .int) d v l).1

/-- All lanes of a summary: index, active, value. -/
def summLanes (s : State) (c : Nat) (k : Cmd) (x : VxCmd) : List (Nat × Bool × W32) :=
  let d := vdesc s c x.da
  ((List.range x.n).map fun v => (List.range 16).map fun l =>
    (16 * v + l, laneActive s c k x v l, summLane s c k x.op d v l)).flatten

/-- The value and index that a summary delivers, and whether it sets invalid (R213, R215). -/
def summValue (s : State) (c : Nat) (k : Cmd) (x : VxCmd) : W32 × Nat × Bool :=
  let ls := summLanes s c k x
  let d := vdesc s c x.da
  let hit := ls.filter fun (_, a, y) => a && nonZero d y
  let nan := ls.filter fun (_, a, y) => a && isNanVal (dec32 y)
  match x.op with
  | .vsums =>
    let sum := (List.range x.n).foldl (fun acc v =>
      let ins := (List.range 16).map fun l => if laneActive s c k x v l then summLane s c k x.op d v l else 0x80000000#32
      add32 acc ((treeReduce (sumNode .rne fun _ => 0) 4 1 ins).1.getD 0 0#32)) 0#32
    (sum, 0xFFFF, !nan.isEmpty)
  | .vmaxs =>
    match nan with
    | (i, _, _) :: _ => (qnan32, i, true)
    | [] =>
      let best := (ls.filter fun (_, a, _) => a).foldl (fun (acc : Option (W32 × Nat)) (i, _, y) => match acc with
        | none => some (y, i)
        | some (m, j) => if fmax m y = m then some (m, j) else some (y, i)) none
      match best with
      | some (m, j) => (m, j, false)
      | none => (ninf32, 0xFFFF, false)
  | .vcnt => (BitVec.ofNat 32 hit.length, 0xFFFF, false)
  | .vany => (if hit.isEmpty then 0#32 else 1#32, 0xFFFF, false)
  | _ => match hit with
    | (i, _, _) :: _ => (BitVec.ofNat 32 i, i, false)
    | [] => (0xFFFFFFFF#32, 0xFFFF, false)

/-- The summary word (R213). -/
def summWord (op : VOp) (val : W32) (idx : Nat) : W64 :=
  let kind := match op with | .vsums => 0 | .vmaxs => 1 | .vcnt => 2 | .vany => 3 | _ => 4
  BitVec.ofNat 64 (kind * 2 ^ 60 + idx % 2 ^ 16 * 2 ^ 32 + val.toNat)

/-- A summary: the word goes out to its inbox slot (R214), with invalid and the window flags of its blocks. -/
def summOne (s : State) (c : Nat) (k : Cmd) (x : VxCmd) : State :=
  let (val, idx, inv) := summValue s c k x
  let d := vdesc s c x.da
  let fl := (List.range x.n).foldl (fun g v => orFlags g (srcBlockFlags s c d v)) { invalid := inv }
  modCore (setArith s c fl) c fun y => { y with summ := y.summ ++ [(x.imm.toNat % 4, summWord x.op val idx)] }

/-- The writes that a vector command makes, one after another: one for each vector, for VMXQ two for each block, for a
summary the one of its word (R202 to R204, R214). -/
def vecWrites (x : VxCmd) : Nat := if vIsSummary x.op then 1 else if x.op = .vmxq then 2 * (x.n / 2) else x.n

end Sys2Proof.Machine
end

