-- ==== Sys2Proof/Machine/Writes.lean ====
section
/-! DEFINITION. Machine/Writes.lean: the writes of the commands, each in its cycle of the tables (R78 to R80, R142, R167 to
R170, R203, R204): one function for each engine that makes write i of a command. At the end of a cycle the writes that fall
in it are made; the row of the table that names the command makes those that are left. -/
namespace Sys2Proof.Machine
open Sys2Proof

/-- Puts a taken accumulator block in place; the other operands are read from the command. -/
def putTaken (s : State) (c : Nat) (w : Taken) (b : List Byte) : State :=
  match w with
  | .acc n => setReg (wrBytes s (accAddr c n 0) (b.take 256)) (accReg c n) (BitVec.ofNat 64 (leNat (b.drop 256)))
  | _ => s

/-- An effect with the blocks that the command took in the cycles that satisfy `p` standing in their places; afterwards they
hold again what they held. -/
def withTaken (s : State) (c : Nat) (k : Cmd) (p : Nat → Bool) (f : State → State) : State :=
  let g := k.got.filter fun g => p g.2.2
  let s' := f (g.foldl (fun s g => putTaken s c g.1 g.2.1) s)
  g.foldl (fun s' g => putTaken s' c g.1 (takenBytes s c g.1)) s'

/-- The cycle is the command's i-th from its begin on. -/
def atInput (k : Cmd) (i : Nat) (cy : Nat) : Bool := cmdCycle k i == some cy

/-- Kind 0b01 takes the block standing in the core's conveyor register, or misses it (R173, R174). -/
def conveyorTake (s : State) (c : Nat) (k : Cmd) (seq : Nat) : State :=
  match (getCore s c).conv with
  | some b =>
    if b.seq = seq then setShadow s c (natLe 32 b.data.toNat) b.kind b.scale.toNat b.seq
    else coreFault s c .conveyorMiss k.tag 1 0
  | none => coreFault s c .conveyorMiss k.tag 1 0

/-- Write i of a matrix command. -/
def mxWrite (s : State) (c : Nat) (k : Cmd) (i : Nat) : State :=
  match mxOf k.slot with
  | .empty => s
  | .wload f src half sc idx reach seq => wloadEffect s c k f src half sc idx reach seq
  | .wloadConveyor seq => conveyorTake s c k seq
  | .wloadScales src sc => wloadScalesOne s c k (if i = 0 then src else sc) i
  | .wloadSerial src reach seq => wloadBlock s c (cmdRow s c k (k.tbase + src)) serialKind 0 reach seq
  | .mstream f _ ab src tr _ sb => streamStep s c k f ab src tr sb i
  | .mclear b n ex w => mclearEffect s c b n ex w
  | .mdrain b _ ex dst => withTaken s c k (fun _ => true) fun s => mdrainRow s c k b ex dst i
  | .mserial wa wbw sa sb _ ab src _ => mserialBlock s c k wa wbw sa sb ab src i

/-- Writes of a matrix command. -/
def mxWrites : MxCmd → Nat
  | .empty => 0
  | .wloadScales .. => 2
  | .mstream _ n .. => n
  | .mdrain _ n ex _ => drainRows ex * n
  | .mserial _ _ _ _ n .. => n
  | _ => 1

/-- The vector command in a slot. -/
def vxOf (slot : Nat) : Option VxCmd := (decodeVector slot).getD none

/-- Write i of a vector command. -/
def vecWrite (s : State) (c : Nat) (k : Cmd) (x : VxCmd) (i : Nat) : State :=
  match x.op with
  | .vcvt => withTaken s c k (atInput k i) fun s => cvtOne s c k x i
  | .vcvtp => cvtpOne s c k x i
  | .vmxq => withTaken s c k (fun cy => atInput k (i / 2 * 2) cy || atInput k (i / 2 * 2 + 1) cy) fun s =>
      if i % 2 = 0 then mxqElems s c k x (i / 2) else mxqScale s c k x (i / 2)
  | .vmxd => mxdOne s c k x i
  | .vsums | .vmaxs | .vcnt | .vany | .vfirst => withTaken s c k (fun _ => true) fun s => summOne s c k x
  | _ => withTaken s c k (atInput k i) fun s => vecOne s c k x i

/-- The move command in a slot. -/
def mvOf (slot : Nat) : MvCmd := (decodeMove slot).getD .empty

/-- Row i of a TCOPY: a row as it was read, or a byte column of the source tile (R44, R89). -/
def tcopyRow (s : State) (c : Nat) (k : Cmd) (src dst : Nat) (tr : Bool) (i : Nat) : State :=
  cmdWrite s c k (k.tbase + dst + i)
    (wholeRow (if tr then colBeat s c k ((k.tbase + src) / 32) i else cmdRow s c k (k.tbase + src + i))) (cmdCycle k (2 + i))

/-- Write i of a command. -/
def cmdOut (s : State) (c : Nat) (k : Cmd) (i : Nat) : State :=
  match k.eng with
  | .matrix => mxWrite s c k i
  | .vector => match vxOf k.slot with
    | some x => vecWrite s c k x i
    | none => s
  | _ => match mvOf k.slot with
    | .tcopy src dst _ tr => tcopyRow s c k src dst tr i
    | _ => s

/-- Writes of a command. -/
def cmdOuts (k : Cmd) : Nat :=
  match k.eng with
  | .matrix => mxWrites (mxOf k.slot)
  | .vector => match vxOf k.slot with
    | some x => vecWrites x
    | none => 0
  | _ => match mvOf k.slot with
    | .tcopy _ _ m _ => m + 1
    | _ => 0

/-- The writes of a command from write i to write j − 1, in order. -/
def cmdRun (s : State) (c : Nat) (k : Cmd) (i j : Nat) : State :=
  ((List.range j).drop i).foldl (fun s i => cmdOut s c k i) s

/-- The writes that a command has not yet made. -/
def finishCmd (s : State) (c : Nat) (k : Cmd) : State := cmdRun s c k k.outN (cmdOuts k)

/-- The writes of a command whose cycle has come are made. -/
def outsDue (s : State) (c : Nat) (k : Cmd) : State :=
  let n := (k.outs.filter fun t => decide (t ≤ s.cycle)).length
  if k.done || n ≤ k.outN then s
  else
    let s := modCore s c fun x => { x with cmds := updFirst (fun y => y == k) (fun y => { y with outN := n }) x.cmds }
    cmdRun s c { k with outN := n } k.outN n

/-- The writes of this cycle, in the order of issue of their commands. -/
def writesDue (s : State) (c : Nat) : State := (getCore s c).cmds.foldl (fun s k => outsDue s c k) s

end Sys2Proof.Machine
end

