-- ==== Sys2Proof/Machine/MatrixOps.lean ====
section
/-! DEFINITION. Machine/MatrixOps.lean: the meanings of the matrix commands (R159 to R164, R173, R174). Each takes effect
when the matrix command whose completion cycle has come is of its kind; otherwise the event does not occur. -/
namespace Sys2Proof.Machine
open Sys2Proof

/-- A matrix command that satisfies `p` takes effect on its core: the writes it has not yet made are made, in order. -/
def mxMeaning (p : MxCmd → Bool) (c : CoreId) (s : State) : Out :=
  match readyCmd s c .matrix fun slot => p (mxOf slot) with
  | some k => .next (markDone (finishCmd s c k) c k)
  | none => .next s

/-- WLOAD (R159): a B block from the tile store into the shadow, and onto the conveyor with reach > 0. -/
def execWload (c : CoreId) (s : State) : Out := mxMeaning (fun m => match m with | .wload .. => true | _ => false) c s

/-- WLOAD_CONVEYOR (R173): the shadow from the conveyor register. -/
def execWloadConveyor (c : CoreId) (s : State) : Out :=
  mxMeaning (fun m => match m with | .wloadConveyor _ => true | _ => false) c s

/-- WLOAD_SCALES (R159): two rows of A scales into the scale buffer. -/
def execWloadScales (c : CoreId) (s : State) : Out :=
  mxMeaning (fun m => match m with | .wloadScales .. => true | _ => false) c s

/-- WLOAD_SERIAL (R159): a serial container block into the shadow. -/
def execWloadSerial (c : CoreId) (s : State) : Out :=
  mxMeaning (fun m => match m with | .wloadSerial .. => true | _ => false) c s

/-- MSTREAM (R160): A blocks through both arrays into accumulator blocks. -/
def execMstream (c : CoreId) (s : State) : Out := mxMeaning (fun m => match m with | .mstream .. => true | _ => false) c s

/-- MCLEAR (R162): mode, window base and elements of accumulator blocks. -/
def execMclear (c : CoreId) (s : State) : Out := mxMeaning (fun m => match m with | .mclear .. => true | _ => false) c s

/-- MDRAIN (R163): accumulator blocks into tile-store rows. -/
def execMdrain (c : CoreId) (s : State) : Out := mxMeaning (fun m => match m with | .mdrain .. => true | _ => false) c s

/-- MSERIAL (R164): digit-serial products into accumulator blocks. -/
def execMserial (c : CoreId) (s : State) : Out := mxMeaning (fun m => match m with | .mserial .. => true | _ => false) c s

end Sys2Proof.Machine
end

