-- ==== Sys2Proof/Machine/MoveOps.lean ====
section
/-! DEFINITION. Machine/MoveOps.lean: the meanings of the move and fetch commands (R44, R70 to R74, R80, R318, R319) and
of the landing of fills. MSEND is in Mesh.lean. -/
namespace Sys2Proof.Machine
open Sys2Proof

/-- A move-engine command that `eff` recognises takes effect on its core. -/
def mvMeaning (eff : MvCmd → Option (State → Nat → Cmd → State)) (c : CoreId) (s : State) : Out :=
  match readyCmd s c .move fun slot => (eff (mvOf slot)).isSome with
  | some k => match eff (mvOf k.slot) with
    | some f => .next (f s c k)
    | none => .next s
  | none => .next s

/-- TCOPY (R44): copies rows_m1 + 1 tile-store rows, or transposes a tile; the rows not yet written are, in order. -/
def execTcopy (c : CoreId) (s : State) : Out :=
  mvMeaning (fun m => match m with
    | .tcopy .. => some fun s c k => markDone (finishCmd s c k) c k
    | _ => none) c s

/-- MPUT (R80): reads its rows and sends its transactions; it completes on the last acknowledgment. -/
def execMput (c : CoreId) (s : State) : Out :=
  mvMeaning (fun m => match m with
    | .mput src _ g _ => some fun s c k => mputEffect s c k src g
    | _ => none) c s

/-- MSCATTER (R319): checks its indices; its granules then leave one by one as their rows are read. -/
def execMscatter (c : CoreId) (s : State) : Out :=
  mvMeaning (fun m => match m with
    | .mscatter _ adr idx n => some fun s c k => mscatterEffect s c k adr idx n
    | _ => none) c s

/-- RPOP (R72): frees the oldest filled ring slots of the command's task, which the fetch engine may refill from the next
cycle. -/
def execRpop (c : CoreId) (s : State) : Out :=
  mvMeaning (fun m => match m with
    | .rpop n => some fun s c k =>
        markDone (modCore s c fun x =>
          let l := (taskAt x k.task).fills
          let m := popFills (n + 1) l
          { x with tasks := x.tasks.set k.task { taskAt x k.task with fills := m }, popped := some (s.cycle, k.task, l.length - m.length) }) c k
    | _ => none) c s

/-- The fetch engine acts where the word at its pointer satisfies `p`. -/
def fetchMeaning (p : W256 → Bool) (c : CoreId) (s : State) : Out :=
  if fetchReady s c && (match fetchWord s c with | some w => p w | none => true) then .next (fetchStep s c) else .next s

/-- FETCH_ADVANCE (R71): the fetch engine acts on the word at its pointer, whatever it holds. -/
def execFetchAdvance (c : CoreId) (s : State) : Out := fetchMeaning (fun _ => true) c s

/-- RFILL (R44): granules or a tile of stacked memory into the next ring slot. -/
def execRfill (c : CoreId) (s : State) : Out :=
  fetchMeaning (fun w => match slotX w with | .rfill .. => true | _ => false) c s

/-- RGATHER (R318): indexed granules into the next ring slot, after checking all indices. -/
def execRgather (c : CoreId) (s : State) : Out :=
  fetchMeaning (fun w => match slotX w with | .rgather .. => true | _ => false) c s

/-- RPULL (R44): a tile of a neighbouring core into the next ring slot. -/
def execRpull (c : CoreId) (s : State) : Out :=
  fetchMeaning (fun w => match slotX w with | .rpull .. => true | _ => false) c s

/-- FILL_LANDED (R70): the fills of a task whose rows have all landed are counted, unless withheld or deferred. -/
def execFillLanded (c : CoreId) (task : Fin 4) (s : State) : Out :=
  if engRuns s c then .next (landFills s c task) else .next s

end Sys2Proof.Machine
end

