-- ==== Sys2Proof/Machine/RegOps.lean ====
section
/-! DEFINITION. Machine/RegOps.lean: register writes by address, and the accesses of the host and of the debug port (R15,
R67, R145, R187, R223, R351, R353, R468, R534, R553, R578, R579). -/
namespace Sys2Proof.Machine
open Sys2Proof

/-! ## Register writes (R15) -/

/-- A write of CLK_HUSH_CTL: abort, idle hush, request (R350, R351, R353). -/
def hushCtlWrite (s : State) (v : W64) : Status × State :=
  let n := v.toNat
  let r := modReg oClkHushCtl
  if bitOf n 2 ∧ (s.clk.kind ≠ 0 ∨ !idleOk s) then (.configRejected, s)
  else
    let s := if bitOf n 3 then hushAbort s else s
    let s := setF s r 0 0 (bitsOf n 0 0)
    if bitOf n 2 then idleHush s else (.ok, s)

/-- A write of a register that acts by itself: by its own rule. -/
def ownWrite (s : State) (m : Master) (a : Nat) (v : W64) : Option (Status × State) :=
  match decodeAddr a with
  | some (.core c o) => if o = 0x18000 + oCoreCtl then some (coreCtlWrite s c v) else none
  | some (.cluster k o) =>
    if o = oCluCtl then some (cluCtlWrite s k v) else if o = oCluFenceCtl then some (.ok, cluFenceWrite s k v) else none
  | some (.field f o) =>
    if o = oFldFenceCtl then some (.ok, fldFenceWrite s f v) else if o = oGwProbeSize then some (probeWrite s f v) else none
  | some (.module o) =>
    if o = oClkStart then some (clkStartWrite s v)
    else if o = oQtzSet then some (qtzSetWrite s v)
    else if o = oClkHushCtl then some (hushCtlWrite s v)
    else if o = oModCkptCtl then some (.ok, ckptWrite s v)
    else if o = oModStepSet then some (stepSetWrite s v)
    else if o = oPwrGovReq then some (.ok, govReqWrite s v)
    else if o = oCarCoreReset then some (.ok, if bitOf v.toNat 0 then coreReset s else s)
    else if o = oHstResetCtl then some (.ok, if bitsOf v.toNat 15 0 = 0xA5C3 then moduleReset s 1 else s)
    else match inArr o oGarLineCtl 8 8, inArr o oCarWdogKick 0x10 5, inArr o oHstMbCmd 0x10 4 with
      | some n, _, _ => some (.ok, garCtlWrite s n v)
      | _, some n, _ => some (.ok, kickWrite s m n v)
      | _, _, some i => some (doorbellWrite s i v)
      | _, _, _ => none
  | some (.link l o) => if o = oLnkCtl ∧ l < 40 then some (.ok, linkCtlWrite s l v) else none
  | _ => none

/-- A register write by a master, once admitted; what the register reserves is ignored (R12). -/
def regWrite (s : State) (m : Master) (a : Nat) (w : W64) : Status × State :=
  let v := tidy a w
  match ownWrite s m a v with
  | some r => r
  | none => if rejects s a v then (.configRejected, countRejected s a) else (.ok, plainWrite s a v)

/-! ## Stores (R67, R144, R145, R187, R223) -/

/-- A locked store refuses a write, which is counted. -/
def locked (s : State) (r : Nat) : Status × State := (.storeLocked, addF s r 31 0 1)

/-- The redirect that ends the core's hold comes in this cycle. -/
def releasedNow (s : State) (c : Nat) : Bool :=
  let x := getCore s c
  x.mode == .held && x.redirect.elim false fun r => decide (r.2 ≤ s.cycle)

/-- A write of the instruction store; in the cycle in which the core leaves HELD it is refused (R67). -/
def imemWrite (s : State) (c off : Nat) (data : List Byte) : Status × State :=
  if coreOpen s c && !releasedNow s c then (.ok, wrBytes s (coreBase c + off) data) else locked s (coreReg c oCoreRefusals)

/-- Bits of byte `i` of an element that do not read as zero, in a block's mode. -/
def accByteMask (exact : Bool) (i : Nat) : Byte :=
  if exact then (if i < 12 then 0xFF#8 else if i = 12 then 7#8 else 0#8) else if i < 4 then 0xFF#8 else 0#8

/-- A write of accumulator bytes: what reads as zero is ignored. -/
def accWrite (s : State) (c off : Nat) (data : List Byte) : Status × State :=
  if coreOpen s c then
    let ex := accExact s c ((off - 0x10000) / 0x100)
    (.ok, (data.zipIdx).foldl (fun s p =>
      let a := coreBase c + off + p.2
      let k := accByteMask ex ((off + p.2) % 16)
      wrByte s a ((rdByte s a &&& ~~~k) ||| (p.1 &&& k))) s)
  else locked s (coreReg c oCoreRefusals)

/-- A write of vector-tile lanes. -/
def vtileWrite (s : State) (c off : Nat) (data : List Byte) : Status × State :=
  if coreOpen s c then (.ok, wrBytes s (coreBase c + off) data) else locked s (coreReg c oCoreRefusals)

/-- A write of steward memory. -/
def stewWrite (s : State) (k off : Nat) (data : List Byte) : Status × State :=
  if stewOpen s k then (.ok, wrBytes s (stewMem k off) data) else locked s (cluReg k oCluRefusals)

/-- A write of a mailbox: the rings; the reserved half ignores it (R578). -/
def ringWrite (s : State) (m off : Nat) (data : List Byte) : State := if off < 0x8000 then wrBytes s (mbAddr m off) data else s

/-! ## Accesses by address (R578, R579) -/

/-- Bytes as they stand: what reads as zero in an accumulator, in a mailbox's reserved half; free values after SCAN (R553). -/
def plainRead (s : State) (a len : Nat) : State :=
  if s.boot.scanned && onWafer a then
    let n := (len + 7) / 8
    answer { s with freeCtr := s.freeCtr + n } .ok
      (((List.range n).flatMap fun i => natLe 8 (Config.freeValue (s.freeCtr + i)).toNat).take len)
  else
    let b := rdBytes s a len
    match decodeAddr a with
    | some (.core c o) =>
      if 0x10000 ≤ o ∧ o < 0x14000 then
        let ex := accExact s c ((o - 0x10000) / 0x100)
        answer s .ok ((b.zipIdx).map fun p => p.1 &&& accByteMask ex ((o + p.2) % 16))
      else answer s .ok b
    | some (.mailbox _ o) => answer s .ok (if o < 0x8000 then b else List.replicate len 0#8)
    | _ => answer s .ok b

/-- A read that has been admitted: the status where the target refuses it. -/
def readAt (s : State) (m : Master) (a len : Nat) : Status × State :=
  match decodeAddr a with
  | some (.stacked ..) => masterTxn s (classOf m) (.master m) false a len []
  | some (.core c o) =>
    if 0x18000 ≤ o then
      if s.boot.scanned then (.ok, plainRead s a len) else (.ok, answer s .ok (natLe 8 (readReg s a).toNat))
    else if o < 0xC000 ∧ !s.boot.scanned then
      (.ok, modCore s c fun x => { x with bgr := x.bgr ++ [⟨.master o len, o / 32⟩] })
    else (.ok, plainRead s a len)
  | some (.steward ..) | some (.mailbox ..) => (.ok, plainRead s a len)
  | _ => if s.boot.scanned && onWafer a then (.ok, plainRead s a len) else (.ok, answer s .ok (natLe 8 (readReg s a).toNat))

/-- A write that has been admitted. -/
def writeAt (s : State) (m : Master) (a : Nat) (data : List Byte) : Status × State :=
  let done (r : Status × State) : Status × State := if r.1 = .ok then (.ok, answer r.2 .ok []) else r
  match decodeAddr a with
  | some (.stacked ..) => masterTxn s (classOf m) (.master m) true a data.length data
  | some (.core c o) =>
    if 0x18000 ≤ o then done (regWrite s m a (BitVec.ofNat 64 (leNat data)))
    else if o < 0xC000 then done (.ok, masterWrite s c o data)
    else if o < 0x10000 then done (imemWrite s c o data)
    else if o < 0x14000 then done (accWrite s c o data)
    else done (vtileWrite s c o data)
  | some (.steward k o) => done (stewWrite s k o data)
  | some (.mailbox i o) => done (.ok, ringWrite s i o data)
  | _ => done (regWrite s m a (BitVec.ofNat 64 (leNat data)))

/-- An access by address: its status and what it leaves. -/
def accessBy (s : State) (m : Master) (a len : Nat) (w : Option (List Byte)) : Status × State :=
  match screenAccess s m w.isSome a len with
  | (.ok, s) => match w with
    | some data => writeAt s m a data
    | none => readAt s m a len
  | r => r

/-- An access whose refusal is answered and recorded. -/
def accessOut (s : State) (m : Master) (a len : Nat) (w : Option (List Byte)) : State :=
  match accessBy s m a len w with
  | (.ok, s) => s
  | (st, s) => refuse s m w.isSome a len st

/-! ## Rows -/

/-- REGISTER_WRITE (R15): a master writes a register. -/
def execRegisterWrite (m : Master) (a : Fin 0x1000000000000) (v : W64) (s : State) : Out :=
  .next (if reaches s m then accessOut s m a 8 (some (natLe 8 v.toNat)) else s)

/-- IMEM_WRITE (R67): a master writes one or two command words. -/
def execImemWrite (m : Master) (c : CoreId) (off : Fin 0x2000) (data : List Byte) (s : State) : Out :=
  .next (if reaches s m then accessOut s m (coreBase c + 0xC000 + off) data.length (some data) else s)

/-- ACC_WRITE (R144, R145). -/
def execAccWrite (m : Master) (c : CoreId) (off : Fin 0x4000) (data : List Byte) (s : State) : Out :=
  .next (if reaches s m then accessOut s m (coreBase c + 0x10000 + off) data.length (some data) else s)

/-- VTILE_WRITE (R187). -/
def execVtileWrite (m : Master) (c : CoreId) (off : Fin 0x1000) (data : List Byte) (s : State) : Out :=
  .next (if reaches s m then accessOut s m (coreBase c + 0x14000 + off) data.length (some data) else s)

/-- STEWARD_MEM_WRITE (R223). -/
def execStewardMemWrite (m : Master) (k : CluId) (off : Fin 0x4000) (data : List Byte) (s : State) : Out :=
  .next (if reaches s m then accessOut s m (stewMem k off) data.length (some data) else s)

/-! ## Host port (R468) -/

/-- Module address of a BAR offset. -/
def barAddr (s : State) (bar2 : Bool) (off : Nat) : Option Nat :=
  if bar2 then
    if off < 0x100000000 then some (getF s (modReg (oHstAper + 8 * (off / 0x40000000))) 17 0 * 0x40000000 + off % 0x40000000) else none
  else if off < 0x1000 then some (modReg 0x7000 + off)
  else if 0x40000 ≤ off ∧ off < 0x80000 then some (mbAddr 0 0 + (off - 0x40000))
  else none

/-- R471's code of a refusal; REFUSED where the table has no name for it. -/
def statusCode : Status → Nat
  | .busy => 1 | .accessDenied => 2 | .targetFenced => 3 | .poisoned => 4 | _ => 0xE

/-- A refusal at the host port: counted, recorded, answered (R468). -/
def hostRefused (s : State) (write : Bool) (a : Nat) (st : Status) : State :=
  let s := if st = .busy then addF s (modReg oHstAperStatus) 63 32 1 else addF s (modReg oHstAperStatus) 31 0 1
  let r := modReg oHstAperErr
  let s := if getB s r 63 then s
    else setReg s r (BitVec.ofNat 64 (2 ^ 63 + write.toNat * 2 ^ 62 + statusCode st * 2 ^ 48 + a % 2 ^ 48))
  answer s (if write then .dropped else .completerAbort) []

/-- HOST_BAR_ACCESS (R468, R581): other offsets of BAR0 read as zero and ignore writes. A read of some bytes, or a write of data. `waited` says that busy_retry_us has passed, so that
BUSY is no longer retried. -/
def execHostBarAccess (bar2 : Bool) (off : Fin 0x100000000) (len : Nat) (w : Option (List Byte)) (waited : Bool) (s : State) : Out :=
  if !reaches s .host then .next s
  else match barAddr s bar2 off with
  | none => .next (answer s .ok (if w.isSome then [] else List.replicate len 0#8))
  | some a =>
    let n := match w with | some d => d.length | none => len
    match accessBy s .host a n w with
    | (.ok, t) => .next t
    | (.busy, t) => .next (if waited then hostRefused t w.isSome a .busy else t)
    | (st, t) => .next (hostRefused (refuse t .host w.isSome a n st) w.isSome a st)

/-! ## Debug port (R553) -/

/-- DEBUG_ACCESS (R552, R553): a register of 8 bytes, or 64 bytes of memory, as master class 6; a refusal's status is
returned. -/
def execDebugAccess (mem : Bool) (a : Fin 0x1000000000000) (w : Option (List Byte)) (s : State) : Out :=
  let n := if mem then 64 else 8
  if (match w with | some d => d.length != n | none => false) then .fault .illFormed
  else tap s fun s => accessOut s .debug a n w

end Sys2Proof.Machine
end

