-- ==== Sys2Proof/Machine/SeqOps.lean ====
section
/-! DEFINITION. Machine/SeqOps.lean: the meanings of the sequencer's steps (R47 to R60, R251, R259). The rows that issue
one kind of word (LINIT, JUMP, …) are the issue of the considered word, where it is of that kind. -/
namespace Sys2Proof.Machine
open Sys2Proof

/-- The sequencer considers the word where it satisfies `p`, and where its wait is still within its horizon (R47, R55). -/
def considerIf (p : W256 → Bool) (c : CoreId) (s : State) : Out :=
  if seqReady s c && !horizonOver s c && p (curWord s c) then .next (considerWord sendOverlay s c) else .next s

/-- ISSUE_WORD (R47). -/
def execIssueWord (c : CoreId) (s : State) : Out := considerIf (fun _ => true) c s

/-- LINIT (R57): loop counter lvl ← loop_arg. -/
def execLinit (c : CoreId) (s : State) : Out := considerIf (fun w => !wDp w && wLoopOp w == 1) c s
/-- LINITR (R57): loop counter lvl ← CORE_LOOPINITn. -/
def execLinitr (c : CoreId) (s : State) : Out := considerIf (fun w => !wDp w && wLoopOp w == 2) c s
/-- LBACK (R57): decrements a non-zero loop counter and branches back, or falls through. -/
def execLback (c : CoreId) (s : State) : Out := considerIf (fun w => !wDp w && wLoopOp w == 3) c s
/-- JUMP (R57): the next word is loop_arg. -/
def execJump (c : CoreId) (s : State) : Out := considerIf (fun w => !wDp w && wLoopOp w == 4) c s
/-- END (R58): the task ends. -/
def execEnd (c : CoreId) (s : State) : Out := considerIf (fun w => !wDp w && wLoopOp w == 5) c s
/-- DECISION_POINT (R60): a dp word issues and the sequencer enters DRAIN. -/
def execDecisionPoint (c : CoreId) (s : State) : Out := considerIf wDp c s
/-- STEP_BOUNDARY (R251): an sb word issues and the core stops issue until the realign. -/
def execStepBoundary (c : CoreId) (s : State) : Out := considerIf wSb c s
/-- BARRIER_ARRIVAL (R259): a bar_en word issues and raises the core's arrival. -/
def execBarrierArrival (c : CoreId) (s : State) : Out := considerIf wBarEn c s

/-- COMMAND_BEGIN (R50): the next queued command of an engine begins, when the previous command's last input beat has
passed and, for a write to memory, there is room (R320). -/
def execCommandBegin (c : CoreId) (u : EngineId) (s : State) : Out :=
  if !engRuns s c then .next s
  else match nextBegin s c u with
    | some k => if putRoom s c k then .next (beginCmd s c k) else .next s
    | none => .next s

/-- COMPLETION_SIGNAL (R54): a command completes and its signal is applied. -/
def execCompletionSignal (c : CoreId) (u : EngineId) (s : State) : Out :=
  match doneCmd s c u with
  | some k => .next (completeCmd s c k)
  | none => .next s

/-- val, cond and ctr of a wait (R538). -/
def waitDetail (w : W256) : Nat := wWaitVal w * 2 ^ 16 + wWaitCond w * 2 ^ 5 + wWaitCtr w

/-- WAIT_TIMEOUT (R55): an unmet wait has been evaluated for its whole horizon. -/
def execWaitTimeout (c : CoreId) (s : State) : Out :=
  if s.clocksOn && (getCore s c).mode == .run && horizonOver s c then
    .next (coreFault s c .waitTimeout (wTag (curWord s c)) 0 (waitDetail (curWord s c)))
  else .next s

/-- The Quartz time at which the current step started, as the core's field keeps it. -/
def stepStart (s : State) (c : Nat) : Nat := (getField s (fieldOfCore c)).stepStart

/-- The deadline of the considered word's wait (R56). -/
def deadlineOf (s : State) (c : Nat) : Nat :=
  stepStart s c + getF s (coreReg c (oCoreTaskDeadline + 8 * (getCore s c).task)) 31 0

/-- DEADLINE_MISS (R56): field Quartz time has passed the deadline of an unmet wait; raised once, and the wait goes on. -/
def execDeadlineMiss (c : CoreId) (s : State) : Out :=
  let x := getCore s c
  let w := curWord s c
  if s.clocksOn && x.mode == .run && x.waitSince.isSome && wWaitDl w && !x.missed && !waitOk s c w &&
      decide (deadlineOf s c < (getReg s (fieldReg (fieldOfCore c) oFldQtzTime)).toNat) then
    let late := (getReg s (fieldReg (fieldOfCore c) oFldQtzTime)).toNat - deadlineOf s c
    let s := trace s c 0x09 (some (wTag w)) (min late (2 ^ 40 - 1))
    .next (modCore (queueFault s (fieldOfCore c) (coreEvent s c .deadlineMiss (wTag w) (deadlineOf s c) c)) c fun x => { x with missed := true })
  else .next s

/-- OVERLAY_LANDED (R63): the overlay's words stand in the instruction store, and the decision point no longer waits. -/
def execOverlayLanded (c : CoreId) (s : State) : Out :=
  let x := getCore s c
  if x.ovlWait && x.ovlLeft.isEmpty && x.ovlOut == 0 then .next (setCore s c { x with ovlWait := false }) else .next s

end Sys2Proof.Machine
end

