-- ==== Sys2Proof/Machine/VectorOps.lean ====
section
/-! DEFINITION. Machine/VectorOps.lean: the meanings of the vector commands (R196 to R216). Each takes effect when the
oldest vector command whose completion cycle has come is of its opcode; otherwise the event does not occur. -/
namespace Sys2Proof.Machine
open Sys2Proof

/-- Is the slot a command of this opcode? -/
def isVop (op : VOp) (slot : Nat) : Bool := (vxOf slot).any fun x => x.op == op

/-- A vector command of the opcode takes effect on its core (R79, R203): the writes it has not yet made are made, in order,
and its vectors are counted. -/
def vecMeaning (op : VOp) (c : CoreId) (s : State) : Out :=
  match readyCmd s c .vector (isVop op) with
  | some k => match vxOf k.slot with
    | some x => .next (markDone (addF (finishCmd s c k) (coreReg c oCoreVxVectors) 63 0 x.n) c k)
    | none => .next s
  | none => .next s

/-- VADD (R196): FP32 a + b. -/
def execVadd (c : CoreId) (s : State) : Out := vecMeaning .vadd c s

/-- VSUB (R196): FP32 a − b. -/
def execVsub (c : CoreId) (s : State) : Out := vecMeaning .vsub c s

/-- VMUL (R196): FP32 a × b. -/
def execVmul (c : CoreId) (s : State) : Out := vecMeaning .vmul c s

/-- VFMA (R196): Fused a × b + c. -/
def execVfma (c : CoreId) (s : State) : Out := vecMeaning .vfma c s

/-- VFNMA (R196): Fused c − a × b. -/
def execVfnma (c : CoreId) (s : State) : Out := vecMeaning .vfnma c s

/-- VMAX (R197): IEEE maximum. -/
def execVmax (c : CoreId) (s : State) : Out := vecMeaning .vmax c s

/-- VMIN (R197): IEEE minimum. -/
def execVmin (c : CoreId) (s : State) : Out := vecMeaning .vmin c s

/-- VABS (R197): Absolute value. -/
def execVabs (c : CoreId) (s : State) : Out := vecMeaning .vabs c s

/-- VNEG (R197): Negation. -/
def execVneg (c : CoreId) (s : State) : Out := vecMeaning .vneg c s

/-- VCMPEQ (R197): Quiet compare, equal. -/
def execVcmpeq (c : CoreId) (s : State) : Out := vecMeaning .vcmpeq c s

/-- VCMPLT (R197): Quiet compare, less than. -/
def execVcmplt (c : CoreId) (s : State) : Out := vecMeaning .vcmplt c s

/-- VCMPLE (R197): Quiet compare, less or equal. -/
def execVcmple (c : CoreId) (s : State) : Out := vecMeaning .vcmple c s

/-- VCMPNE (R197): Quiet compare, not equal. -/
def execVcmpne (c : CoreId) (s : State) : Out := vecMeaning .vcmpne c s

/-- VDROP (R197): Keyed dropout: zero or a × b by the lane's draw. -/
def execVdrop (c : CoreId) (s : State) : Out := vecMeaning .vdrop c s

/-- VRAND (R196): Uniform FP32 from the lane's draw. -/
def execVrand (c : CoreId) (s : State) : Out := vecMeaning .vrand c s

/-- VIADD (R196): Integer add. -/
def execViadd (c : CoreId) (s : State) : Out := vecMeaning .viadd c s

/-- VISUB (R196): Integer subtract. -/
def execVisub (c : CoreId) (s : State) : Out := vecMeaning .visub c s

/-- VIMUL (R196): Integer multiply, low 32 bits. -/
def execVimul (c : CoreId) (s : State) : Out := vecMeaning .vimul c s

/-- VAND (R196): Bitwise and. -/
def execVand (c : CoreId) (s : State) : Out := vecMeaning .vand c s

/-- VOR (R196): Bitwise or. -/
def execVor (c : CoreId) (s : State) : Out := vecMeaning .vor c s

/-- VXOR (R196): Bitwise xor. -/
def execVxor (c : CoreId) (s : State) : Out := vecMeaning .vxor c s

/-- VSHL (R196): Shift left. -/
def execVshl (c : CoreId) (s : State) : Out := vecMeaning .vshl c s

/-- VSHR (R196): Logical shift right. -/
def execVshr (c : CoreId) (s : State) : Out := vecMeaning .vshr c s

/-- VSRA (R196): Arithmetic shift right. -/
def execVsra (c : CoreId) (s : State) : Out := vecMeaning .vsra c s

/-- VIMAX (R196): Signed integer maximum. -/
def execVimax (c : CoreId) (s : State) : Out := vecMeaning .vimax c s

/-- VIMIN (R196): Signed integer minimum. -/
def execVimin (c : CoreId) (s : State) : Out := vecMeaning .vimin c s

/-- VPERM (R196): Lane permutation. -/
def execVperm (c : CoreId) (s : State) : Out := vecMeaning .vperm c s

/-- VTRN4 (R196): 4 × 4 lane transpose. -/
def execVtrn4 (c : CoreId) (s : State) : Out := vecMeaning .vtrn4 c s

/-- VIOTA (R196): Writes lane index plus an immediate. -/
def execViota (c : CoreId) (s : State) : Out := vecMeaning .viota c s

/-- VRSUM4 (R197): Pairwise-tree sum over groups of 4 lanes. -/
def execVrsum4 (c : CoreId) (s : State) : Out := vecMeaning .vrsum4 c s

/-- VRMAX4 (R197): Pairwise-tree maximum over groups of 4 lanes. -/
def execVrmax4 (c : CoreId) (s : State) : Out := vecMeaning .vrmax4 c s

/-- VRSUM16 (R197): Pairwise-tree sum over 16 lanes. -/
def execVrsum16 (c : CoreId) (s : State) : Out := vecMeaning .vrsum16 c s

/-- VRMAX16 (R197): Pairwise-tree maximum over 16 lanes. -/
def execVrmax16 (c : CoreId) (s : State) : Out := vecMeaning .vrmax16 c s

/-- VEXP2 (R208): Bit-exact exp2. -/
def execVexp2 (c : CoreId) (s : State) : Out := vecMeaning (.spec .exp2 false) c s

/-- VLOG2 (R209): Bit-exact log2. -/
def execVlog2 (c : CoreId) (s : State) : Out := vecMeaning (.spec .log2 false) c s

/-- VRCP (R210): Bit-exact reciprocal. -/
def execVrcp (c : CoreId) (s : State) : Out := vecMeaning (.spec .rcp false) c s

/-- VRSQRT (R210): Bit-exact reciprocal square root. -/
def execVrsqrt (c : CoreId) (s : State) : Out := vecMeaning (.spec .rsqrt false) c s

/-- VTANH (R211): Bit-exact tanh. -/
def execVtanh (c : CoreId) (s : State) : Out := vecMeaning (.spec .tanh false) c s

/-- VSIGM (R211): Bit-exact sigmoid. -/
def execVsigm (c : CoreId) (s : State) : Out := vecMeaning (.spec .sigm false) c s

/-- VEXP2_PRESCALED (R206): exp2 of fma32(a, b, c). -/
def execVexp2Prescaled (c : CoreId) (s : State) : Out := vecMeaning (.spec .exp2 true) c s

/-- VLOG2_PRESCALED (R206): log2 of fma32(a, b, c). -/
def execVlog2Prescaled (c : CoreId) (s : State) : Out := vecMeaning (.spec .log2 true) c s

/-- VRCP_PRESCALED (R206): Reciprocal of fma32(a, b, c). -/
def execVrcpPrescaled (c : CoreId) (s : State) : Out := vecMeaning (.spec .rcp true) c s

/-- VRSQRT_PRESCALED (R206): Reciprocal square root of fma32(a, b, c). -/
def execVrsqrtPrescaled (c : CoreId) (s : State) : Out := vecMeaning (.spec .rsqrt true) c s

/-- VTANH_PRESCALED (R206): tanh of fma32(a, b, c). -/
def execVtanhPrescaled (c : CoreId) (s : State) : Out := vecMeaning (.spec .tanh true) c s

/-- VSIGM_PRESCALED (R206): Sigmoid of fma32(a, b, c). -/
def execVsigmPrescaled (c : CoreId) (s : State) : Out := vecMeaning (.spec .sigm true) c s

/-- VCVT (R199): Converts between formats with rnd and sat, including rounding out of accumulators. -/
def execVcvt (c : CoreId) (s : State) : Out := vecMeaning .vcvt c s

/-- VCVTP (R200): Rounds exact partials from the tile store with a given window base. -/
def execVcvtp (c : CoreId) (s : State) : Out := vecMeaning .vcvtp c s

/-- VMXQ (R201): Quantizes FP32 vectors into MX blocks and scale bytes. -/
def execVmxq (c : CoreId) (s : State) : Out := vecMeaning .vmxq c s

/-- VMXD (R202): Dequantizes MX blocks into FP32 vectors. -/
def execVmxd (c : CoreId) (s : State) : Out := vecMeaning .vmxd c s

/-- VSUMS (R213): Summary: sum of active lanes, delivered to the steward inbox. -/
def execVsums (c : CoreId) (s : State) : Out := vecMeaning .vsums c s

/-- VMAXS (R213): Summary: maximum value and its first index. -/
def execVmaxs (c : CoreId) (s : State) : Out := vecMeaning .vmaxs c s

/-- VCNT (R213): Summary: count of active non-zero lanes. -/
def execVcnt (c : CoreId) (s : State) : Out := vecMeaning .vcnt c s

/-- VANY (R213): Summary: whether any active lane is non-zero. -/
def execVany (c : CoreId) (s : State) : Out := vecMeaning .vany c s

/-- VFIRST (R213): Summary: first active non-zero lane index. -/
def execVfirst (c : CoreId) (s : State) : Out := vecMeaning .vfirst c s

end Sys2Proof.Machine
end

