-- ==== Sys2Proof/Machine/Dispatch.lean ====
section
/-! DEFINITION. Machine/Dispatch.lean: the meaning of every command, one arm per row of the table. -/
namespace Sys2Proof.Machine
open Sys2Proof

/-- The effect of a command on everything but the queue. -/
def exec (i : Instr) (s : State) : Host.Outcome State Fault Refusal :=
  match i with
  | .issueWord c => Sys2Proof.Machine.execIssueWord c s
  | .commandBegin c u => Sys2Proof.Machine.execCommandBegin c u s
  | .completionSignal c u => Sys2Proof.Machine.execCompletionSignal c u s
  | .waitTimeout c => Sys2Proof.Machine.execWaitTimeout c s
  | .deadlineMiss c => Sys2Proof.Machine.execDeadlineMiss c s
  | .linit c => Sys2Proof.Machine.execLinit c s
  | .linitr c => Sys2Proof.Machine.execLinitr c s
  | .lback c => Sys2Proof.Machine.execLback c s
  | .jump c => Sys2Proof.Machine.execJump c s
  | .endI c => Sys2Proof.Machine.execEnd c s
  | .decisionPoint c => Sys2Proof.Machine.execDecisionPoint c s
  | .dpArrival c => Sys2Proof.Machine.execDpArrival c s
  | .overlayLanded c => Sys2Proof.Machine.execOverlayLanded c s
  | .redirect c => Sys2Proof.Machine.execRedirect c s
  | .stepBoundary c => Sys2Proof.Machine.execStepBoundary c s
  | .barrierArrival c => Sys2Proof.Machine.execBarrierArrival c s
  | .coreCtl m c v => Sys2Proof.Machine.execCoreCtl m c v s
  | .moduleStartPulse => Sys2Proof.Machine.execModuleStartPulse s
  | .fetchAdvance c => Sys2Proof.Machine.execFetchAdvance c s
  | .rfill c => Sys2Proof.Machine.execRfill c s
  | .rgather c => Sys2Proof.Machine.execRgather c s
  | .rpull c => Sys2Proof.Machine.execRpull c s
  | .fillLanded c task => Sys2Proof.Machine.execFillLanded c task s
  | .tcopy c => Sys2Proof.Machine.execTcopy c s
  | .mput c => Sys2Proof.Machine.execMput c s
  | .mscatter c => Sys2Proof.Machine.execMscatter c s
  | .msend c => Sys2Proof.Machine.execMsend c s
  | .rpop c => Sys2Proof.Machine.execRpop c s
  | .wload c => Sys2Proof.Machine.execWload c s
  | .wloadConveyor c => Sys2Proof.Machine.execWloadConveyor c s
  | .wloadScales c => Sys2Proof.Machine.execWloadScales c s
  | .wloadSerial c => Sys2Proof.Machine.execWloadSerial c s
  | .mstream c => Sys2Proof.Machine.execMstream c s
  | .mclear c => Sys2Proof.Machine.execMclear c s
  | .mdrain c => Sys2Proof.Machine.execMdrain c s
  | .mserial c => Sys2Proof.Machine.execMserial c s
  | .vadd c => Sys2Proof.Machine.execVadd c s
  | .vsub c => Sys2Proof.Machine.execVsub c s
  | .vmul c => Sys2Proof.Machine.execVmul c s
  | .vfma c => Sys2Proof.Machine.execVfma c s
  | .vfnma c => Sys2Proof.Machine.execVfnma c s
  | .vmax c => Sys2Proof.Machine.execVmax c s
  | .vmin c => Sys2Proof.Machine.execVmin c s
  | .vabs c => Sys2Proof.Machine.execVabs c s
  | .vneg c => Sys2Proof.Machine.execVneg c s
  | .vcmpeq c => Sys2Proof.Machine.execVcmpeq c s
  | .vcmplt c => Sys2Proof.Machine.execVcmplt c s
  | .vcmple c => Sys2Proof.Machine.execVcmple c s
  | .vcmpne c => Sys2Proof.Machine.execVcmpne c s
  | .vdrop c => Sys2Proof.Machine.execVdrop c s
  | .vrand c => Sys2Proof.Machine.execVrand c s
  | .viadd c => Sys2Proof.Machine.execViadd c s
  | .visub c => Sys2Proof.Machine.execVisub c s
  | .vimul c => Sys2Proof.Machine.execVimul c s
  | .vand c => Sys2Proof.Machine.execVand c s
  | .vor c => Sys2Proof.Machine.execVor c s
  | .vxor c => Sys2Proof.Machine.execVxor c s
  | .vshl c => Sys2Proof.Machine.execVshl c s
  | .vshr c => Sys2Proof.Machine.execVshr c s
  | .vsra c => Sys2Proof.Machine.execVsra c s
  | .vimax c => Sys2Proof.Machine.execVimax c s
  | .vimin c => Sys2Proof.Machine.execVimin c s
  | .vperm c => Sys2Proof.Machine.execVperm c s
  | .vtrn4 c => Sys2Proof.Machine.execVtrn4 c s
  | .viota c => Sys2Proof.Machine.execViota c s
  | .vrsum4 c => Sys2Proof.Machine.execVrsum4 c s
  | .vrmax4 c => Sys2Proof.Machine.execVrmax4 c s
  | .vrsum16 c => Sys2Proof.Machine.execVrsum16 c s
  | .vrmax16 c => Sys2Proof.Machine.execVrmax16 c s
  | .vexp2 c => Sys2Proof.Machine.execVexp2 c s
  | .vlog2 c => Sys2Proof.Machine.execVlog2 c s
  | .vrcp c => Sys2Proof.Machine.execVrcp c s
  | .vrsqrt c => Sys2Proof.Machine.execVrsqrt c s
  | .vtanh c => Sys2Proof.Machine.execVtanh c s
  | .vsigm c => Sys2Proof.Machine.execVsigm c s
  | .vexp2Prescaled c => Sys2Proof.Machine.execVexp2Prescaled c s
  | .vlog2Prescaled c => Sys2Proof.Machine.execVlog2Prescaled c s
  | .vrcpPrescaled c => Sys2Proof.Machine.execVrcpPrescaled c s
  | .vrsqrtPrescaled c => Sys2Proof.Machine.execVrsqrtPrescaled c s
  | .vtanhPrescaled c => Sys2Proof.Machine.execVtanhPrescaled c s
  | .vsigmPrescaled c => Sys2Proof.Machine.execVsigmPrescaled c s
  | .vcvt c => Sys2Proof.Machine.execVcvt c s
  | .vcvtp c => Sys2Proof.Machine.execVcvtp c s
  | .vmxq c => Sys2Proof.Machine.execVmxq c s
  | .vmxd c => Sys2Proof.Machine.execVmxd c s
  | .vsums c => Sys2Proof.Machine.execVsums c s
  | .vmaxs c => Sys2Proof.Machine.execVmaxs c s
  | .vcnt c => Sys2Proof.Machine.execVcnt c s
  | .vany c => Sys2Proof.Machine.execVany c s
  | .vfirst c => Sys2Proof.Machine.execVfirst c s
  | .summaryLanded c => Sys2Proof.Machine.execSummaryLanded c s
  | .combinerAccept c => Sys2Proof.Machine.execCombinerAccept c s
  | .combinerFlush c => Sys2Proof.Machine.execCombinerFlush c s
  | .backgroundRead c odd => Sys2Proof.Machine.execBackgroundRead c odd s
  | .nop k => Sys2Proof.Machine.execNop k s
  | .add k => Sys2Proof.Machine.execAdd k s
  | .sub k => Sys2Proof.Machine.execSub k s
  | .andI k => Sys2Proof.Machine.execAnd k s
  | .orI k => Sys2Proof.Machine.execOr k s
  | .xor k => Sys2Proof.Machine.execXor k s
  | .shl k => Sys2Proof.Machine.execShl k s
  | .shr k => Sys2Proof.Machine.execShr k s
  | .sra k => Sys2Proof.Machine.execSra k s
  | .mul k => Sys2Proof.Machine.execMul k s
  | .slt k => Sys2Proof.Machine.execSlt k s
  | .sltu k => Sys2Proof.Machine.execSltu k s
  | .addi k => Sys2Proof.Machine.execAddi k s
  | .ori k => Sys2Proof.Machine.execOri k s
  | .andi k => Sys2Proof.Machine.execAndi k s
  | .lui k => Sys2Proof.Machine.execLui k s
  | .flt k => Sys2Proof.Machine.execFlt k s
  | .fle k => Sys2Proof.Machine.execFle k s
  | .feq k => Sys2Proof.Machine.execFeq k s
  | .ld k => Sys2Proof.Machine.execLd k s
  | .st k => Sys2Proof.Machine.execSt k s
  | .inbv k => Sys2Proof.Machine.execInbv k s
  | .inbi k => Sys2Proof.Machine.execInbi k s
  | .tsld k => Sys2Proof.Machine.execTsld k s
  | .tsst k => Sys2Proof.Machine.execTsst k s
  | .ctrinc k => Sys2Proof.Machine.execCtrinc k s
  | .ctrincApply k => Sys2Proof.Machine.execCtrincApply k s
  | .dptag k => Sys2Proof.Machine.execDptag k s
  | .beq k => Sys2Proof.Machine.execBeq k s
  | .bne k => Sys2Proof.Machine.execBne k s
  | .blt k => Sys2Proof.Machine.execBlt k s
  | .bge k => Sys2Proof.Machine.execBge k s
  | .bltu k => Sys2Proof.Machine.execBltu k s
  | .bgeu k => Sys2Proof.Machine.execBgeu k s
  | .jal k => Sys2Proof.Machine.execJal k s
  | .jr k => Sys2Proof.Machine.execJr k s
  | .waitdp k => Sys2Proof.Machine.execWaitdp k s
  | .waitdpComplete k => Sys2Proof.Machine.execWaitdpComplete k s
  | .decisionHorizon k => Sys2Proof.Machine.execDecisionHorizon k s
  | .setnx k => Sys2Proof.Machine.execSetnx k s
  | .release k => Sys2Proof.Machine.execRelease k s
  | .qtime k => Sys2Proof.Machine.execQtime k s
  | .cyc k => Sys2Proof.Machine.execCyc k s
  | .notify k => Sys2Proof.Machine.execNotify k s
  | .halt k => Sys2Proof.Machine.execHalt k s
  | .cluCtl m k v => Sys2Proof.Machine.execCluCtl m k v s
  | .cluFenceCtl m k v => Sys2Proof.Machine.execCluFenceCtl m k v s
  | .fldFenceCtl m f v => Sys2Proof.Machine.execFldFenceCtl m f v s
  | .fenceApplied f clu => Sys2Proof.Machine.execFenceApplied f clu s
  | .garnetRelease n => Sys2Proof.Machine.execGarnetRelease n s
  | .realignArrival c => Sys2Proof.Machine.execRealignArrival c s
  | .realign => Sys2Proof.Machine.execRealign s
  | .realignHorizon c => Sys2Proof.Machine.execRealignHorizon c s
  | .garnetRail f n spare => Sys2Proof.Machine.execGarnetRail f n spare s
  | .garFallback m n v => Sys2Proof.Machine.execGarFallback m n v s
  | .fallbackSwitch n => Sys2Proof.Machine.execFallbackSwitch n s
  | .fallbackRelease n g => Sys2Proof.Machine.execFallbackRelease n g s
  | .deadlock k => Sys2Proof.Machine.execDeadlock k s
  | .sendRowDeparture c => Sys2Proof.Machine.execSendRowDeparture c s
  | .routerBeat c dir upset => Sys2Proof.Machine.execRouterBeat c dir upset s
  | .creditReturn c => Sys2Proof.Machine.execCreditReturn c s
  | .landerTake c lane => Sys2Proof.Machine.execLanderTake c lane s
  | .rowLanding c lane => Sys2Proof.Machine.execRowLanding c lane s
  | .combineRow c => Sys2Proof.Machine.execCombineRow c s
  | .portForward k => Sys2Proof.Machine.execPortForward k s
  | .gatewayAdmit f => Sys2Proof.Machine.execGatewayAdmit f s
  | .granuleService f ch ecc => Sys2Proof.Machine.execGranuleService f ch ecc s
  | .refreshSlot f => Sys2Proof.Machine.execRefreshSlot f s
  | .scrubSlot f ch ecc => Sys2Proof.Machine.execScrubSlot f ch ecc s
  | .readReturn f => Sys2Proof.Machine.execReadReturn f s
  | .writeAck f => Sys2Proof.Machine.execWriteAck f s
  | .gwProbeSize m f v => Sys2Proof.Machine.execGwProbeSize m f v s
  | .probeDone f => Sys2Proof.Machine.execProbeDone f s
  | .refLoss b => Sys2Proof.Machine.execRefLoss b s
  | .refQualified b => Sys2Proof.Machine.execRefQualified b s
  | .refSwitchDone => Sys2Proof.Machine.execRefSwitchDone s
  | .clockCheckFail f => Sys2Proof.Machine.execClockCheckFail f s
  | .droopDetect f clu => Sys2Proof.Machine.execDroopDetect f clu s
  | .hushStop n => Sys2Proof.Machine.execHushStop n s
  | .idleHush m => Sys2Proof.Machine.execIdleHush m s
  | .hushRestart => Sys2Proof.Machine.execHushRestart s
  | .railTimeout => Sys2Proof.Machine.execRailTimeout s
  | .hushAbort m => Sys2Proof.Machine.execHushAbort m s
  | .qtzSet m v => Sys2Proof.Machine.execQtzSet m v s
  | .clkStart m v => Sys2Proof.Machine.execClkStart m v s
  | .qtzSteer double => Sys2Proof.Machine.execQtzSteer double s
  | .qtzSourceSwitch src qualified => Sys2Proof.Machine.execQtzSourceSwitch src qualified s
  | .linkEn m l v => Sys2Proof.Machine.execLinkEn m l v s
  | .linkRetrain m l => Sys2Proof.Machine.execLinkRetrain m l s
  | .linkForceDown m l => Sys2Proof.Machine.execLinkForceDown m l s
  | .linkRetry l => Sys2Proof.Machine.execLinkRetry l s
  | .trainingStepTimeout l step => Sys2Proof.Machine.execTrainingStepTimeout l step s
  | .frameStart => Sys2Proof.Machine.execFrameStart s
  | .frameHeaderRx l frac h => Sys2Proof.Machine.execFrameHeaderRx l frac h s
  | .silentTimeout l => Sys2Proof.Machine.execSilentTimeout l s
  | .cellPrefetch l n g k => Sys2Proof.Machine.execCellPrefetch l n g k s
  | .cellRx l n p c => Sys2Proof.Machine.execCellRx l n p c s
  | .cellRelease l q => Sys2Proof.Machine.execCellRelease l q s
  | .replay l n p => Sys2Proof.Machine.execReplay l n p s
  | .slipAnnounce origin frame => Sys2Proof.Machine.execSlipAnnounce origin frame s
  | .slipFrame => Sys2Proof.Machine.execSlipFrame s
  | .laneFailure l lane => Sys2Proof.Machine.execLaneFailure l lane s
  | .linkDown l => Sys2Proof.Machine.execLinkDown l s
  | .stepTokenRx l => Sys2Proof.Machine.execStepTokenRx l s
  | .timedRelease => Sys2Proof.Machine.execTimedRelease s
  | .ptpMessage offset => Sys2Proof.Machine.execPtpMessage offset s
  | .ckptRelease m v => Sys2Proof.Machine.execCkptRelease m v s
  | .modStepSet m v => Sys2Proof.Machine.execModStepSet m v s
  | .twinRecordSend => Sys2Proof.Machine.execTwinRecordSend s
  | .twinRecordRx r => Sys2Proof.Machine.execTwinRecordRx r s
  | .twinSilence => Sys2Proof.Machine.execTwinSilence s
  | .rdmaRead j qpn rkey va len => Sys2Proof.Machine.execRdmaRead j qpn rkey va len s
  | .rdmaWrite j qpn rkey va data => Sys2Proof.Machine.execRdmaWrite j qpn rkey va data s
  | .rdmaUnsupported j => Sys2Proof.Machine.execRdmaUnsupported j s
  | .mgmtDatagram j port v6 addr data => Sys2Proof.Machine.execMgmtDatagram j port v6 addr data s
  | .hostBarAccess bar2 off len w waited => Sys2Proof.Machine.execHostBarAccess bar2 off len w waited s
  | .mailboxDoorbell w mb v => Sys2Proof.Machine.execMailboxDoorbell w mb v s
  | .hello mb => Sys2Proof.Machine.execHello mb s
  | .bye mb => Sys2Proof.Machine.execBye mb s
  | .imageCommit mb starts => Sys2Proof.Machine.execImageCommit mb starts s
  | .updateI mb => Sys2Proof.Machine.execUpdate mb s
  | .updateHandover done => Sys2Proof.Machine.execUpdateHandover done s
  | .updateFailback unreadable => Sys2Proof.Machine.execUpdateFailback unreadable s
  | .loadI mb => Sys2Proof.Machine.execLoad mb s
  | .startI mb => Sys2Proof.Machine.execStart mb s
  | .stopI mb => Sys2Proof.Machine.execStop mb s
  | .allocI mb => Sys2Proof.Machine.execAlloc mb s
  | .freeI mb => Sys2Proof.Machine.execFree mb s
  | .qpSetup mb => Sys2Proof.Machine.execQpSetup mb s
  | .qpDestroy mb => Sys2Proof.Machine.execQpDestroy mb s
  | .winOpen mb => Sys2Proof.Machine.execWinOpen mb s
  | .winClose mb => Sys2Proof.Machine.execWinClose mb s
  | .fenceI mb => Sys2Proof.Machine.execFence mb s
  | .checkpoint mb => Sys2Proof.Machine.execCheckpoint mb s
  | .faults mb => Sys2Proof.Machine.execFaults mb s
  | .telemetry mb => Sys2Proof.Machine.execTelemetry mb s
  | .hostLinkDown => Sys2Proof.Machine.execHostLinkDown s
  | .ident pec => Sys2Proof.Machine.execIdent pec s
  | .stateI pec => Sys2Proof.Machine.execState pec s
  | .vin pec => Sys2Proof.Machine.execVin pec s
  | .iin pec => Sys2Proof.Machine.execIin pec s
  | .pin pec => Sys2Proof.Machine.execPin pec s
  | .pcap pec => Sys2Proof.Machine.execPcap pec s
  | .energy pec => Sys2Proof.Machine.execEnergy pec s
  | .holdup pec => Sys2Proof.Machine.execHoldup pec s
  | .tIn pec => Sys2Proof.Machine.execTIn pec s
  | .tOut pec => Sys2Proof.Machine.execTOut pec s
  | .tMax pec => Sys2Proof.Machine.execTMax pec s
  | .alertStatus pec => Sys2Proof.Machine.execAlertStatus pec s
  | .alertClear pec v => Sys2Proof.Machine.execAlertClear pec v s
  | .alertMask pec v => Sys2Proof.Machine.execAlertMask pec v s
  | .smbusRefresh => Sys2Proof.Machine.execSmbusRefresh s
  | .dip vin => Sys2Proof.Machine.execDip vin s
  | .braceExit => Sys2Proof.Machine.execBraceExit s
  | .shutdown => Sys2Proof.Machine.execShutdown s
  | .shaperTick x => Sys2Proof.Machine.execShaperTick x s
  | .rampRelease => Sys2Proof.Machine.execRampRelease s
  | .thermalLoop temps tIn tOut => Sys2Proof.Machine.execThermalLoop temps tIn tOut s
  | .thermalTrip f temp => Sys2Proof.Machine.execThermalTrip f temp s
  | .energyTick f => Sys2Proof.Machine.execEnergyTick f s
  | .energyLog => Sys2Proof.Machine.execEnergyLog s
  | .gaugeCalibration charge => Sys2Proof.Machine.execGaugeCalibration charge s
  | .discharge present vStore => Sys2Proof.Machine.execDischarge present vStore s
  | .pwrGovReq m v => Sys2Proof.Machine.execPwrGovReq m v s
  | .mateDetect closed => Sys2Proof.Machine.execMateDetect closed s
  | .carWdogKick m n v => Sys2Proof.Machine.execCarWdogKick m n v s
  | .watchdogExpired n => Sys2Proof.Machine.execWatchdogExpired n s
  | .coreReset m v => Sys2Proof.Machine.execCoreReset m v s
  | .moduleReset m v => Sys2Proof.Machine.execModuleReset m v s
  | .powerOn => Sys2Proof.Machine.execPowerOn s
  | .romBoot => Sys2Proof.Machine.execRomBoot s
  | .waferBringup x => Sys2Proof.Machine.execWaferBringup x s
  | .runtimeStartTimeout => Sys2Proof.Machine.execRuntimeStartTimeout s
  | .faultCollect src good => Sys2Proof.Machine.execFaultCollect src good s
  | .faultPoll f answered => Sys2Proof.Machine.execFaultPoll f answered s
  | .traceWrite f => Sys2Proof.Machine.execTraceWrite f s
  | .bypass tdi => Sys2Proof.Machine.execBypass tdi s
  | .idcode => Sys2Proof.Machine.execIdcode s
  | .samplePreload pins shift => Sys2Proof.Machine.execSamplePreload pins shift s
  | .extest pins shift => Sys2Proof.Machine.execExtest pins shift s
  | .debugAccess mem a w => Sys2Proof.Machine.execDebugAccess mem a w s
  | .flash dbg stay off data => Sys2Proof.Machine.execFlash dbg stay off data s
  | .scan dbg => Sys2Proof.Machine.execScan dbg s
  | .resetI => Sys2Proof.Machine.execReset s
  | .registerWrite m a v => Sys2Proof.Machine.execRegisterWrite m a v s
  | .imemWrite m c off data => Sys2Proof.Machine.execImemWrite m c off data s
  | .accWrite m c off data => Sys2Proof.Machine.execAccWrite m c off data s
  | .vtileWrite m c off data => Sys2Proof.Machine.execVtileWrite m c off data s
  | .stewardMemWrite m k off data => Sys2Proof.Machine.execStewardMemWrite m k off data s
  | .tileStoreWrite m c off data => Sys2Proof.Machine.execTileStoreWrite m c off data s
  | .stackedMemoryWrite m a data => Sys2Proof.Machine.execStackedMemoryWrite m a data s
  | .backPending quartzSource => Sys2Proof.Machine.execBackPending quartzSource s
  | .noHushWithin1S => Sys2Proof.Machine.execNoHushWithin1S s
  | .inputClassified low high => Sys2Proof.Machine.execInputClassified low high s
  | .perst asserted => Sys2Proof.Machine.execPerst asserted s
  | .serviceLinkDown j up => Sys2Proof.Machine.execServiceLinkDown j up s
  | .energyScale => Sys2Proof.Machine.execEnergyScale s

end Sys2Proof.Machine
end

