-- ==== Sys2Proof/Machine/Tick.lean ====
section
/-! DEFINITION. Machine/Tick.lean: what happens as time passes. With no command waiting, one core cycle ends: counter
updates become visible, arrays make ghost steps, the conveyor moves, waits and stalls are counted, fields stretch, and
Quartz time goes on (DESIGN CHOICE: the table has no row for a tick). With the core clocks stopped, 1 ns of Quartz time
passes. -/
namespace Sys2Proof.Machine
open Sys2Proof

/-! ## Counters at the end of a cycle (R53, R250, R254) -/

/-- A counter's realign update (R254): what replaces its value before the cycle's updates are added. -/
def realignBase (s : State) (c i : Nat) : BitVec 16 :=
  let v := ctrVal s c i
  let k := BitVec.ofNat 16 (getF s (coreReg c (oCoreCtrStep + 8 * (i / 4))) (16 * (i % 4) + 15) (16 * (i % 4)))
  match getF s (coreReg c oCoreCtrMode) (2 * i + 1) (2 * i) with
  | 1 | 2 => v - k
  | 3 => 0#16
  | _ => v

/-- The sum of a cycle's updates of a counter: increments are not negative, GE_SUB alone subtracts (R53, R250). -/
def netSum (l : List (Nat × Int)) (i : Nat) : Int := ((l.filter (·.1 == i)).map (·.2)).sum

/-- Counter i at the end of a cycle. -/
def commitCtr (s : State) (c i : Nat) : State :=
  let x := getCore s c
  let base := if x.real then realignBase s c i else ctrVal s c i
  setCtr s c i (base + BitVec.ofInt 16 (netSum x.ctrAdd i))

/-- The counters' updates of the cycle become visible, and net changes are checked (R53, R250, R254). -/
def commitCounters (s : State) (c : Nat) : State :=
  let x := getCore s c
  if x.ctrAdd.isEmpty && !x.real then s
  else
    let net := (List.range 32).map fun i => (if x.real then 0 else x.net.getD i 0) + netSum x.ctrAdd i
    let s := (List.range 32).foldl (fun s i => commitCtr s c i) s
    let s := modCore s c fun x => { x with ctrAdd := [], real := false, net := net }
    match (List.range 32).find? fun i => decide (net.getD i 0 < -0x8000) || decide (0x7FFF < net.getD i 0) with
    | some i => countDrift s c 1 i (ctrVal s c i) (getCore s c).lastTag
    | none => s

/-! ## Ghost steps, held cycles (R178, R181, R182, R269) -/

/-- A held cycle (R178, R251): in DRAIN, a cycle after that in which the last command completed. -/
def heldNow (x : CoreSt) (cy : Nat) : Bool :=
  (x.mode == .run && (x.waitSince.isSome || x.sbHold)) || x.mode == .held ||
    (x.mode == .drain && x.cmds.isEmpty && x.lateW.isEmpty && x.popped.all fun p => p.1 < cy)

/-- Ghost density at a schedule idle count (R181): of every four cycles. -/
def ghostDens (g : Nat) : Nat := if g < 32 then 4 - g / 8 else 0

/-- The cycle of a core's arrays: step, held or idle; ghost steps by R181 and those the shaper asks for (R182, R487). -/
def arrayCycle (s : State) (c : Nat) : State :=
  let x := getCore s c
  let held := heldNow x s.cycle
  let step := x.stepCys.contains s.cycle
  let dens := if x.heldRun = 0 then ghostDens x.idle else x.heldDens
  let ghost := !step && (if held then decide (x.heldRun % 4 < dens) else decide (x.idle < 32) && decide (x.idle % 4 < ghostDens x.idle))
  let asked := !step && !ghost && decide (s.cycle % 4 < getF s (fieldReg (fieldOfCore c) oFldPwrStatus) 2 0)
  let s := if step then addF s (coreReg c oCoreMxSteps) 63 0 1 else s
  let s := if ghost || asked then addF s (coreReg c oCoreMxGhosts) 63 0 1 else s
  let s := if ghost then act s c 6 1 else if asked then actShared s (fieldOfCore c) 6 1 else s
  let w := coreReg c oCoreWaitStats
  let s := if held then addF s w 31 0 1 else s
  let s := if held && !step && !ghost then addF s w 63 32 1 else s
  modCore s c fun x => { x with
    idle := if step then 0 else if held then x.idle else min 0xFFFF (x.idle + 1)
    heldRun := if held then x.heldRun + 1 else 0
    heldDens := if held then dens else 0
    ramp := ((x.rampPlan.find? fun p => p.1 == s.cycle).map (·.2)).getD x.ramp
    rampPlan := x.rampPlan.filter fun p => decide (s.cycle < p.1)
    stepCys := x.stepCys.filter fun t => decide (s.cycle < t) }

/-- Ghost steps that the shaper asks of cores for which nothing is listed: they stand idle (R487). -/
def idleGhosts (s : State) (f : Nat) : State :=
  let g := getF s (fieldReg f oFldPwrStatus) 2 0
  if s.cycle % 4 < g ∧ !fieldFenced s f then
    (List.range 16384).foldl (fun s i =>
      let c := coreAt f (i % 128) (i / 128)
      if (smKeys s.cores).contains c || coreFenced s c then s
      else actShared (addF s (coreReg c oCoreMxGhosts) 63 0 1) f 6 1) s
  else s

/-! ## Waits and stalls -/

/-- Background reads, those of combining channels among them, and ready combiner entries that waited for a port (R94). -/
def countBgWait (s : State) (c : Nat) : State :=
  let x := getCore s c
  let n := (x.bgr.filter fun r => readThere s c r && !bgReadFree s c (rowSide r.row)).length +
    ((List.range 2).filter fun i => (laneNext s c i).any fun p => !p.1.plain && !bgReadFree s c (rowSide (laneRow s c p.1))).length +
    (x.comb.filter fun e => entryReady s.cycle e && !flushFree s c (rowSide e.row)).length
  if n = 0 then s else addF s (coreReg c oCoreTsBgwait) 63 0 n

/-- The head row of the send buffer did not depart; a lane's row did not leave its queue (R283, R290, R296). -/
def countStalls (s : State) (c : Nat) : State :=
  let s := match sendHead s c with
    | some r => if (getCore s c).sentAt = some s.cycle then s else addF s (chStall c r.beat.sendChan) 63 0 1
    | none => s
  (List.range 2).foldl (fun s l => match (getCore s c).lanes.getD l none with
    | some y => if !y.drop && decide (y.next ≤ s.cycle) && (queueHead s c y.dir).isSome then addF s (chStall c y.chan) 63 0 1 else s
    | none => s) s

/-- An MPUT or MSCATTER that could begin but for room (R320). -/
def countBeginWait (s : State) (c : Nat) : State :=
  match nextBegin s c .move with
  | some k => if putRoom s c k then s else addF s (coreReg c oCoreMemStats) 31 0 1
  | none => s

/-- A core whose task has ended and whose commands are all complete enters STOPPED (R58), which counts as an arrival with the
tag of its last decision point (R231, R232); a step boundary is crossed first (R251). -/
def settle (s : State) (c : Nat) : State :=
  let x := getCore s c
  if x.mode = .run ∧ x.ended ∧ x.cmds = [] ∧ x.summ = [] ∧ !x.sbHold then
    setCore s c { x with mode := .stopped, arrAt := some (s.cycle + 1), prevTag := x.arrTag }
  else s

/-- The end of a core's cycle: the writes of the cycle are made, its counts and counters follow, and the operands of the next
cycle are taken. A fenced core has none. -/
def coreCycle (s : State) (c : Nat) : State :=
  if coreFenced s c then s
  else
    let s := raiseConflicts s c
    let s := notePort (countBgWait (countStalls (countBeginWait s c) c) c) c
    let s := pumpOverlay 32 (scatterDue (writesDue s c) c) c
    let s := settle (commitCounters (arrayCycle s c) c) c
    let keep (x : CoreSt) (a : SchedAcc) : Bool :=
      decide (s.cycle < a.cy) || (a.lost && x.cmds.any fun k => k.eng == a.eng && k.tag == a.tag)
    let s := modCore s c fun x => { x with lateW := [], seen := [], sched := x.sched.filter (keep x) }
    takeDue s c (s.cycle + 1)

/-! ## The conveyor (R171, R172, R177) -/

/-- The core south of a core in its cluster. -/
def southOf (c : Nat) : Option Nat := if cyOf c % 8 = 7 then none else some (c + 1024)

/-- The block that a core hands south at the end of a cycle: its own, or the one that stood in its register. -/
def handsSouth (s : State) (c : Nat) : Option ConvBlk :=
  let x := getCore s c
  if coreFenced s c then none
  else match x.convOut with
    | some (t, b) => if t = s.cycle then some b else x.conv
    | none => x.conv

/-- A block that stood in a core's register is counted. -/
def convStood (s : State) (c : Nat) : State :=
  let x := getCore s c
  if x.conv.isSome && !coreFenced s c then act (addF s (coreReg c oCoreConveyor) 63 32 1) c 7 1 else s

/-- The conveyors move one hop. -/
def moveConveyors (s : State) : State :=
  let ks := (smKeys s.cores).filter fun c => (getCore s c).conv.isSome || (getCore s c).convOut.isSome
  let moves := ks.filterMap fun c => match handsSouth s c, southOf c with
    | some b, some d => if b.left = 0 || coreFenced s d then none else some (d, { b with left := b.left - 1 })
    | _, _ => none
  let s := ks.foldl (fun s c => modCore (convStood s c) c fun x => { x with conv := none, convOut := none }) s
  moves.foldl (fun s m => modCore s m.1 fun x => { x with conv := some m.2 }) s

/-! ## Clusters and fields -/

/-- Summaries that landed enter the inbox (R230); slack (R270), requests that wait in their cores (R312), and the hang
counter of R267. -/
def clusterCycle (s : State) (k : Nat) : State :=
  if cluFenced s k then s
  else
    let s := enterSummaries s k
    let cs := (cluCores k).filter fun c => !coreFenced s c
    let s := if !cs.isEmpty && cs.all (fun c => heldNow (getCore s c) s.cycle) then addF s (fieldReg (k / 256) oFldSlack) 63 0 1 else s
    let waits := ((getField s (k / 256)).txns.filter fun t => t.cls == 0 && t.stage == .core && cluOf t.core == k).map (·.core)
    let s := if waits.isEmpty then s else addF s (cluReg k oCluMemStats) 63 32 waits.eraseDups.length
    let old := (getClu s k).closedFor
    let n := if deadNow s k then (if old < 16 then old + 1 else old) else 0
    if n = old then s else modClu s k fun y => { y with closedFor := n }

/-- The clusters for which something is listed. -/
def listedClusters (s : State) : List Nat := ((smKeys s.cores).map cluOf ++ smKeys s.clus).eraseDups

/-- Pacing stretches this cycle of every field (R488). -/
def paced (s : State) : Bool := decide (s.cycle % 4 < paceOf s)

/-- A field's cycle: its stretch, which a pacing stretch takes in (R345 to R348, R488), its events (R497), and its time in
local mode, with the servo's steering of this cycle, `edge` ns (R359, R361). -/
def fieldCycle (edge : Int) (s : State) (f : Nat) : State :=
  if fieldFenced s f then s
  else
    let s := if paced s then
        let s := if (getField s f).stretchReqs.isEmpty then s else modField s f fun x => { x with stretchReqs := stretchLeft x s.cycle }
        addLag s f
      else stretchCycle s f
    let long := paced s || (getField s f).stretchLast == some s.cycle
    let s := actShared (actShared s f 32 1) f 33 long.toNat
    if getB s (modReg oQtzCtl) 9 then s
    else if (getField s f).qHold ∧ quartz s < (getReg s (fieldReg f oFldQtzTime)).toNat then s
    else
      let t := (getField s f).qFrac + (if long then 75 else 50)
      addF (modField s f fun x => { x with qFrac := t % multM s, qHold := false }) (fieldReg f oFldQtzTime) 63 0 ((t / multM s : Nat) + edge).toNat

/-! ## Quartz time -/

/-- In direct mode a field's time is the module counter, never moved backward (R361, R362). -/
def directTimes (s : State) : State :=
  if getB s (modReg oQtzCtl) 9 then
    (List.range 64).foldl (fun s f =>
      if (getReg s (fieldReg f oFldQtzTime)).toNat < quartz s ∧ !fieldFenced s f then setReg s (fieldReg f oFldQtzTime) (getReg s (modReg oQtzTime))
      else s) s
  else s

/-- What a steered edge among the next n adds to the counter besides (R359). -/
def steerNs (s : State) (n : Nat) : Int := match s.clk.steer with
  | some double => if n = 0 then 0 else if double then 1 else -1
  | none => 0

/-- At the start of a refresh frame the gateways leave a self-refresh whose brace is over (R311, R331). -/
def leaveRefresh (q : Nat) (s : State) : State :=
  if s.pwr.refreshOut ∧ q / 4096 ≠ quartz s / 4096 then
    (List.range 64).foldl (fun s f => setF s (fieldReg f oGwStatus) 44 44 0) { s with pwr := { s.pwr with refreshOut := false } }
  else s

/-- Edges of the Quartz clock pass: each advances the counter by 1, a steered one by 2 or by 0 (R359). -/
def passNs (s : State) (n : Nat) : State :=
  let d := steerNs s n
  let s := { s with ns := s.ns + n, clk := { s.clk with steer := if n = 0 then s.clk.steer else none } }
  (smKeys s.links).foldl startPositions <| directTimes (leaveRefresh (quartz s) (addF s (modReg oQtzTime) 63 0 (n + d).toNat))

/-- A core cycle ends, and its time has passed (R17, R336, R359). -/
def coreClock (s : State) : State :=
  let s := (smKeys s.cores).foldl (fun s c => coreCycle s c) s
  let s := (List.range 64).foldl (fun s f => idleGhosts s f) s
  let s := (listedClusters s).foldl (fun s k => clusterCycle s k) (moveConveyors s)
  let t := s.clk.frac + (if paced s then 75 else 50)
  let m := multM s
  let s := (List.range 64).foldl (fieldCycle (steerNs s (t / m))) (sampleHush s)
  let s := passNs { s with cycle := s.cycle + 1, clk := { s.clk with frac := t % m } } (t / m)
  -- a conflict of the cycle that begins stops its core before anything issues in it (R96)
  (smKeys s.cores).foldl (fun s c => if coreFenced s c then s else raiseConflicts s c) s

/-- What the module does with no command waiting. Without power nothing happens. -/
def tick (s : State) : State :=
  if !s.boot.power then s
  else
    let s := s.host.closing.foldl (fun s p => settleClose s p.1 p.2) s
    if s.clocksOn then coreClock s else passNs s 1

end Sys2Proof.Machine
end

