-- ==== Sys2Proof/WellFormed.lean ====
section
/-! DEFINITION. WellFormed.lean: what the table's rows say of operands beyond their types. An ill-formed command is one
that nothing outside the module could send. -/
namespace Sys2Proof

/-- A cell carries at most 32 rows of 32 bytes; an empty cell carries none (R377, R381). -/
def Cell.ok (c : Cell) : Bool :=
  decide (c.rows.length ≤ 32) && c.rows.all (·.length == 32) && (!c.empty || c.rows.isEmpty)

/-- A header names 34 lanes and carries at most 2,048 management bytes (R373, R379). -/
def Header.ok (h : Header) : Bool := h.lanes.length == 34 && decide (h.mgmt.length ≤ 2048)

/-- A twin record holds 64 field digests (R448). -/
def TwinRec.ok (r : TwinRec) : Bool := r.digests.length == 64

/-- Is a command well-formed? -/
def Instr.ok (i : Instr) : Bool :=
  match i with
  | .cellRx _ _ _ c => c.ok
  | .frameHeaderRx _ _ h => h.ok
  | .twinRecordRx r => (match r.capture with | some c => c.log.all (·.length == 32) | none => true) && r.ok
  | .thermalLoop temps _ _ => temps.length == 64
  | .debugAccess mem _ w => match w with
    | some d => d.length == (if mem then 64 else 8)
    | none => true
  | .flash _ _ off data => decide (off.val + data.length ≤ 0x4000000)
  | .imemWrite _ _ off data => decide (off.val + data.length ≤ 0x2000)
  | .accWrite _ _ off data => decide (off.val + data.length ≤ 0x4000)
  | .vtileWrite _ _ off data => decide (off.val + data.length ≤ 0x1000)
  | .stewardMemWrite _ _ off data => decide (off.val + data.length ≤ 0x4000)
  | .tileStoreWrite _ _ off data => decide (off.val + data.length ≤ 49152)
  | .stackedMemoryWrite _ a data => decide (a.val + data.length ≤ 0x10000000000)
  | .rdmaWrite _ _ _ _ data => decide (data.length < 2 ^ 32)
  | _ => true

end Sys2Proof
end

