-- ==== Sys2Proof/Safety.lean ====
section
/-! DEFINITION. Safety.lean: what claims are stated in: the canonical form of the tables, a well-formed queue, a core that
still runs, a module that stands still. -/
namespace Sys2Proof.Machine
open Sys2Proof

/-- The byte memory is in its canonical form: addresses strictly rising, nothing listed that reads as an unlisted byte. -/
def MemCanon (s : State) : Prop := Memory.wf s.mem = true

/-- Every command that waits is well-formed. -/
def QueueOk (s : State) : Prop := ∀ i ∈ s.pending, i.ok = true

/-- A core is in service: its field and cluster are not fenced. -/
def InService (s : State) (c : CoreId) : Prop := coreFenced s c = false

/-- A core's engines run: the clocks are on, the core is not in RESET and not fenced (R51, R58, R60). -/
def EnginesRun (s : State) (c : CoreId) : Prop := engRuns s c = true

/-- Two states agree on every byte of memory. -/
def SameMem (s t : State) : Prop := ∀ a, rdByte t a = rdByte s a

/-- Two states agree on every byte of memory outside n bytes from an address on. -/
def SameMemOutside (s t : State) (a n : Nat) : Prop := ∀ b, (b < a ∨ a + n ≤ b) → rdByte t b = rdByte s b

/-- Two states agree on every register outside a set. -/
def SameRegsBut (s t : State) (p : Nat → Prop) : Prop := ∀ a, ¬ p a → getReg t a = getReg s a

/-! ## Frames -/

/-- Two states agree on every register. -/
def SameRegs (s t : State) : Prop := ∀ a, getReg t a = getReg s a

/-- Two states agree on every core's state but one's. -/
def SameCoresBut (s t : State) (c : Nat) : Prop := ∀ d, d ≠ c → getCore t d = getCore s d

/-- Two states agree on every cluster's state but one's. -/
def SameClusBut (s t : State) (k : Nat) : Prop := ∀ j, j ≠ k → getClu t j = getClu s j

/-- Two states agree on every field's state but one's. -/
def SameFieldsBut (s t : State) (f : Nat) : Prop := ∀ g, g ≠ f → getField t g = getField s g

/-- Of the fields' states, only the counts of events may differ (R497). -/
def OnlyActs (s t : State) : Prop := ∀ f, ∃ a, getField t f = { getField s f with acts := a }

/-! ## Stewards (R220 to R247) -/

/-- The word that a steward would issue. -/
def stewAt (s : State) (k : CluId) : SWord := stewWord s k (getClu s k).pc

/-- A steward issues an instruction of an opcode: it runs and is free, and the word at its pc is legal and has that opcode
(R221, R225, R227, R228). -/
def StewardIssues (s : State) (k : CluId) (op : Nat) : Prop :=
  stewReady s k = true ∧ swLegal (stewAt s k) = true ∧ swOp (stewAt s k) = op

/-- A steward has its sixteen registers (R220). -/
def SixteenRegs (s : State) (k : CluId) : Prop := (getClu s k).regs.length = 16

/-- Nothing but one cluster's state and the counts of events differs: every byte, register, core and link is as before. -/
def OnlySteward (s t : State) (k : CluId) : Prop :=
  t = { s with clus := t.clus, fields := t.fields } ∧ SameMem s t ∧ SameClusBut s t k ∧ OnlyActs s t

/-- A steward's registers after rd has been written: s0 reads as zero and discards (R220). -/
def StewardWrote (s t : State) (k : CluId) (rd : Nat) (v : W32) : Prop :=
  ∀ r, r < 16 → sreg (getClu t k) r = if r = 0 then 0#32 else if r = rd then v else sreg (getClu s k) r

/-- The cluster goes on to the next word, ready after n cycles; of the rest of its state only the registers may differ. -/
def StewardNext (s t : State) (k : CluId) (n : Nat) : Prop :=
  getClu t k = { getClu s k with regs := (getClu t k).regs, pc := ((getClu s k).pc + 1) % 4096, freeAt := s.cycle + n }

/-- A row of the steward's table of arithmetic: command, opcode, result. -/
structure StewardRow where
  cmd : CluId → Instr
  op : Nat
  val : W32 → W32 → SWord → W32

/-- Arithmetic, logic, shifts and compares of R226, said in numbers. -/
def stewardArith : List StewardRow :=
  [ ⟨.add, 0x01, fun a b _ => BitVec.ofNat 32 (a.toNat + b.toNat)⟩,
    ⟨.sub, 0x02, fun a b _ => BitVec.ofInt 32 ((a.toNat : Int) - b.toNat)⟩,
    ⟨.andI, 0x03, fun a b _ => a &&& b⟩,
    ⟨.orI, 0x04, fun a b _ => a ||| b⟩,
    ⟨.xor, 0x05, fun a b _ => a ^^^ b⟩,
    ⟨.shl, 0x06, fun a b _ => BitVec.ofNat 32 (a.toNat * 2 ^ (b.toNat % 32))⟩,
    ⟨.shr, 0x07, fun a b _ => BitVec.ofNat 32 (a.toNat / 2 ^ (b.toNat % 32))⟩,
    ⟨.sra, 0x08, fun a b _ => BitVec.ofInt 32 (a.toInt / 2 ^ (b.toNat % 32))⟩,
    ⟨.mul, 0x09, fun a b _ => BitVec.ofNat 32 (a.toNat * b.toNat)⟩,
    ⟨.slt, 0x0A, fun a b _ => if a.toInt < b.toInt then 1#32 else 0#32⟩,
    ⟨.sltu, 0x0B, fun a b _ => if a.toNat < b.toNat then 1#32 else 0#32⟩,
    ⟨.addi, 0x0C, fun a _ w => BitVec.ofInt 32 (a.toNat + signedOf 14 (swImm w))⟩,
    ⟨.ori, 0x0D, fun a _ w => a ||| BitVec.ofNat 32 (swImm w)⟩,
    ⟨.andi, 0x0E, fun a _ w => a &&& BitVec.ofNat 32 (swImm w)⟩,
    ⟨.lui, 0x0F, fun _ _ w => BitVec.ofNat 32 (bitsOf w.toNat 17 0 * 2 ^ 14)⟩,
    ⟨.flt, 0x10, fun a b _ => if flt a b then 1#32 else 0#32⟩,
    ⟨.fle, 0x11, fun a b _ => if fle a b then 1#32 else 0#32⟩,
    ⟨.feq, 0x12, fun a b _ => if feq a b then 1#32 else 0#32⟩ ]

/-- A row of the steward's branches: command, opcode, condition. -/
structure BranchRow where
  cmd : CluId → Instr
  op : Nat
  cond : W32 → W32 → Prop

/-- The branches of R226. -/
def stewardBranches : List BranchRow :=
  [ ⟨.beq, 0x20, fun a b => a = b⟩,
    ⟨.bne, 0x21, fun a b => a ≠ b⟩,
    ⟨.blt, 0x22, fun a b => a.toInt < b.toInt⟩,
    ⟨.bge, 0x23, fun a b => b.toInt ≤ a.toInt⟩,
    ⟨.bltu, 0x24, fun a b => a.toNat < b.toNat⟩,
    ⟨.bgeu, 0x25, fun a b => b.toNat ≤ a.toNat⟩ ]

/-- The commands by which a steward issues an instruction. -/
def stewardCommands : List (CluId → Instr) :=
  stewardArith.map (·.cmd) ++ stewardBranches.map (·.cmd) ++
    [.nop, .ld, .st, .inbv, .inbi, .tsld, .tsst, .ctrinc, .dptag, .jal, .jr, .waitdp, .setnx, .release, .qtime, .cyc,
     .notify, .halt]

/-- The registers that the delivery of a fault record of a field may change: the counts of records lost and of trace records dropped. -/
def recordRegs (f : Nat) (a : Nat) : Prop :=
  a = fieldReg f oFldFaultStatus ∨ a = modReg oModFaultLost ∨ a = fieldReg f oFldTraceStatus

/-- A steward has faulted with a cause of R245: it is FAULTED, CLU_FAULT_INFO holds the first cause and pc, and its cores are
not stopped. A RELEASE that was waiting counts its wait (R235). -/
def StewardFaulted (s t : State) (k : CluId) (cause : Nat) : Prop :=
  getClu t k = { getClu s k with mode := .faulted, wait := none, relFrom := none } ∧
  getReg t (cluReg k oCluFaultInfo) = (if getB s (cluReg k oCluFaultInfo) 63 then getReg s (cluReg k oCluFaultInfo)
    else BitVec.ofNat 64 (2 ^ 63 + cause * 2 ^ 44 + (getClu s k).pc % 4096 * 2 ^ 16)) ∧
  (∀ c, getCore t c = getCore s c) ∧ SameMem s t ∧ SameClusBut s t k ∧
  (∀ q, (getClu s k).relFrom = some q →
    getF t (cluReg k oCluStats) 31 16 = min (getF s (cluReg k oCluStats) 31 16 + (s.cycle - q)) 65535) ∧
  getF t (cluReg k oCluStats) 63 32 = getF s (cluReg k oCluStats) 63 32 ∧
  SameRegsBut s t (fun a => a = cluReg k oCluFaultInfo ∨ ((getClu s k).relFrom ≠ none ∧ a = cluReg k oCluStats) ∨ recordRegs (k / 256) a)

/-! ## Sequencers and engines (R36 to R82, R251, R259) -/

/-- A core has its four tasks, and one of them runs (R64). -/
def FourTasks (s : State) (c : CoreId) : Prop := (getCore s c).tasks.length = 4 ∧ (getCore s c).task < 4

/-- The sequencer considers a word in this cycle, and no wait that holds it is past its horizon (R47, R55). -/
def Considers (s : State) (c : CoreId) : Prop := seqReady s c = true ∧ horizonOver s c = false

/-- The considered word passes check 1; a word that a wait holds has passed it when it was first considered (R48). -/
def WordLegal (s : State) (c : CoreId) : Prop := (getCore s c).waitSince = none → illegalSlot s c (curWord s c) = none

/-- The considered word passes every check of R48, and its wait is absent or met (R47, R52). -/
def WordIssues (s : State) (c : CoreId) : Prop :=
  Considers s c ∧ WordLegal s c ∧ waitOk s c (curWord s c) = true ∧ boundFail s c (curWord s c) = none ∧
  overlayFits s c (curWord s c) = true ∧ overlayOutside s c (curWord s c) = none ∧ hazardFail s c (curWord s c) = none ∧
  overrunFail s c (curWord s c) = none

/-- A word's arrival on its Garnet line raises no BARRIER_EARLY: the core is a member, its last arrival is not held, and in
fallback its group is used (R259, R265). -/
def MayArrive (s : State) (c : CoreId) (n : Nat) : Prop :=
  getB s (garReg c n) 10 = false ∧ garMember s c n = true ∧
  (getB s (modReg (oGarLineCtl + 8 * n)) 0 = true →
    getF s (modReg (oGarFbexpG + 0x80 * n + 8 * getF s (garReg c n) 9 6)) 20 0 ≠ 0)

/-- A core faults (R51): it enters FAULTED, what has begun completes, what is queued is discarded, and CORE_FAULT_INFO holds
slot, other tag and tag. No byte and no other core changes. -/
def CoreFaulted (s t : State) (c : CoreId) (slot other : Nat) (tag : BitVec 20) : Prop :=
  (getCore t c).mode = .faulted ∧ (getCore t c).cmds = (getCore s c).cmds.filter (·.begun.isSome) ∧
  (getReg t (coreReg c oCoreFaultInfo)).toNat = 2 ^ 63 + slot * 2 ^ 40 + other * 2 ^ 20 + tag.toNat ∧
  SameMem s t ∧ SameCoresBut s t c

/-! ## Commands of the engines (R36 to R54) -/

/-- The effect of a command is due: of its engine's begun commands it is the oldest whose effect has not happened, and its
cycle has come (R50, R54). -/
def CommandDue (s : State) (c : CoreId) (u : EngineId) (k : Cmd) : Prop := readyCmd s c u (fun _ => true) = some k

/-- A command has lost none of its accesses in a bank conflict (R96). -/
def NothingLost (s : State) (c : CoreId) (k : Cmd) : Prop :=
  ((getCore s c).sched.any fun a => a.lost && a.eng == k.eng && a.tag == k.tag) = false

/-- A row of the vector opcodes that work lane by lane, vector by vector: command and operation. -/
def vectorLaneRows : List ((CoreId → Instr) × VOp) :=
  [ (.vadd, .vadd), (.vsub, .vsub), (.vmul, .vmul), (.vfma, .vfma), (.vfnma, .vfnma), (.vmax, .vmax), (.vmin, .vmin),
    (.vabs, .vabs), (.vneg, .vneg), (.vcmpeq, .vcmpeq), (.vcmplt, .vcmplt), (.vcmple, .vcmple), (.vcmpne, .vcmpne),
    (.vdrop, .vdrop), (.vrand, .vrand), (.viadd, .viadd), (.visub, .visub), (.vimul, .vimul), (.vand, .vand), (.vor, .vor),
    (.vxor, .vxor), (.vshl, .vshl), (.vshr, .vshr), (.vsra, .vsra), (.vimax, .vimax), (.vimin, .vimin), (.vperm, .vperm),
    (.vtrn4, .vtrn4), (.viota, .viota), (.vrsum4, .vrsum4), (.vrmax4, .vrmax4), (.vrsum16, .vrsum16), (.vrmax16, .vrmax16),
    (.vexp2, .spec .exp2 false), (.vlog2, .spec .log2 false), (.vrcp, .spec .rcp false), (.vrsqrt, .spec .rsqrt false),
    (.vtanh, .spec .tanh false), (.vsigm, .spec .sigm false), (.vexp2Prescaled, .spec .exp2 true),
    (.vlog2Prescaled, .spec .log2 true), (.vrcpPrescaled, .spec .rcp true), (.vrsqrtPrescaled, .spec .rsqrt true),
    (.vtanhPrescaled, .spec .tanh true), (.vsigmPrescaled, .spec .sigm true) ]

/-- The summary opcodes. -/
def summaryRows : List ((CoreId → Instr) × VOp) :=
  [(.vsums, .vsums), (.vmaxs, .vmaxs), (.vcnt, .vcnt), (.vany, .vany), (.vfirst, .vfirst)]

/-- A pairwise tree over lanes: node k of level n + 1 takes nodes 2k and 2k + 1 of level n (R197). -/
def pairTree (f : Nat → Nat → W32 → W32 → W32) (x : Nat → W32) : Nat → Nat → W32
  | 0, k => x k
  | n + 1, k => f (n + 1) k (pairTree f x n (2 * k)) (pairTree f x n (2 * k + 1))

/-- The result of lane l of vector v by R196 and R197: `a`, `b`, `e` are the lanes of the sources, `dr` the draws, `act` which lanes
are active. A node of level n rounds with the draw of lane (2k + 1) × 2^(n − 1). -/
def vectorValue (op : VOp) (rnd : Rnd) (imm : BitVec 16) (dr : Nat → Nat) (act : Nat → Bool) (a b e : Nat → W32) (v l : Nat) : W32 :=
  let sum (n k : Nat) (x y : W32) : W32 := (fadd x y rnd (dr ((2 * k + 1) * 2 ^ (n - 1)))).1
  let top (_ _ : Nat) (x y : W32) : W32 := fmax x y
  match op with
  | .vadd => (fadd (a l) (b l) rnd (dr l)).1
  | .vsub => (fsub (a l) (b l) rnd (dr l)).1
  | .vmul => (fmul (a l) (b l) rnd (dr l)).1
  | .vfma => (ffma (a l) (b l) (e l) rnd (dr l)).1
  | .vfnma => (ffnma (a l) (b l) (e l) rnd (dr l)).1
  | .vmax => fmax (a l) (b l)
  | .vmin => fmin (a l) (b l)
  | .vabs => if isNanVal (dec32 (a l)) then qnan32 else BitVec.ofNat 32 ((a l).toNat % 2 ^ 31)
  | .vneg => if isNanVal (dec32 (a l)) then qnan32 else a l ^^^ 0x80000000#32
  | .vcmpeq => if feq (a l) (b l) then 0xFFFFFFFF#32 else 0#32
  | .vcmplt => if flt (a l) (b l) then 0xFFFFFFFF#32 else 0#32
  | .vcmple => if feq (a l) (b l) ∨ flt (a l) (b l) then 0xFFFFFFFF#32 else 0#32
  | .vcmpne => if feq (a l) (b l) then 0#32 else 0xFFFFFFFF#32
  | .vdrop => if dr l / 2 ^ 16 < imm.toNat then 0#32 else (fmul (a l) (b l) rnd (dr l)).1
  | .vrand => (enc32 (.fin false (dr l / 2 ^ 8) (-24)) .rne 0).1
  | .viadd => BitVec.ofNat 32 ((a l).toNat + (b l).toNat)
  | .visub => BitVec.ofInt 32 (((a l).toNat : Int) - (b l).toNat)
  | .vimul => BitVec.ofNat 32 ((a l).toNat * (b l).toNat)
  | .vand => a l &&& b l
  | .vor => a l ||| b l
  | .vxor => a l ^^^ b l
  | .vshl => BitVec.ofNat 32 ((a l).toNat * 2 ^ ((b l).toNat % 32))
  | .vshr => BitVec.ofNat 32 ((a l).toNat / 2 ^ ((b l).toNat % 32))
  | .vsra => BitVec.ofInt 32 ((a l).toInt / 2 ^ ((b l).toNat % 32))
  | .vimax => if (b l).toInt ≤ (a l).toInt then a l else b l
  | .vimin => if (a l).toInt ≤ (b l).toInt then a l else b l
  | .vperm => a ((b l).toNat % 16)
  | .vtrn4 => a (4 * (l % 4) + l / 4)
  | .viota => BitVec.ofInt 32 (imm.toInt + (16 * v + l : Nat))
  | .vrsum4 => pairTree sum (fun i => if act i then a i else 0x80000000#32) 2 (l / 4)
  | .vrsum16 => pairTree sum (fun i => if act i then a i else 0x80000000#32) 4 0
  | .vrmax4 => pairTree top (fun i => if act i then a i else ninf32) 2 (l / 4)
  | .vrmax16 => pairTree top (fun i => if act i then a i else ninf32) 4 0
  | .spec f pre => specVal f (if pre then fma32 (a l) (b l) (e l) else a l)
  | _ => a l

/-- The lanes of source a, b or c of vector v, 0 for a source that the opcode does not take (R192, R193). -/
def laneA (s : State) (c : Nat) (k : Cmd) (x : VxCmd) (v l : Nat) : W32 :=
  if (vSrcs x.op).1 then (srcLane s c k (vLaneIn x.op) (vdesc s c x.da) v l).1 else 0#32
/-- Source b: the immediate with b_imm; VPERM takes it as INT32. -/
def laneB (s : State) (c : Nat) (k : Cmd) (x : VxCmd) (v l : Nat) : W32 :=
  if x.bImm then immLane (vLaneIn x.op) x.imm
  else if (vSrcs x.op).2.1 then (srcLane s c k (if x.op = .vperm then .int else vLaneIn x.op) (vdesc s c x.db) v l).1 else 0#32
/-- Source c. -/
def laneE (s : State) (c : Nat) (k : Cmd) (x : VxCmd) (v l : Nat) : W32 :=
  if (vSrcs x.op).2.2 then (srcLane s c k (vLaneIn x.op) (vdesc s c x.dc) v l).1 else 0#32

/-- The exact value x × 2^e over 2^w, rounded down to an integer. -/
def floorAt (neg : Bool) (m : Nat) (e w : Int) : Int :=
  let x : Int := if neg then -(m : Int) else m
  if w ≤ e then x * (2 ^ (e - w).toNat : Nat) else x / ((2 ^ (w - e).toNat : Nat) : Int)

/-! ## Transactions, moves, the fetch engine (R44, R70 to R81, R312 to R319) -/

/-- A field's transactions are those before and then the given ones, each by direction, first byte, bytes and data. -/
def SentTxns (s t : State) (f : Nat) (l : List (Bool × Nat × Nat × List Byte)) : Prop :=
  (getField t f).txns.take (getField s f).txns.length = (getField s f).txns ∧
  ((getField t f).txns.drop (getField s f).txns.length).map (fun u => (u.write, u.addr, u.len, u.data)) = l

/-- A run of n granules from an address on: one transaction for a tile, and one for each granule otherwise (R44). -/
def granuleRun (write : Bool) (a n : Nat) (data : Nat → List Byte) : List (Bool × Nat × Nat × List Byte) :=
  if n = 16 then [(write, a, 1024, ((List.range 16).map data).flatten)]
  else (List.range n).map fun i => (write, a + 64 * i, 64, data i)

/-- The fetch engine comes to a legal word that it has not acted on, and nothing stops it there (R71, R74). -/
def FetchSees (s : State) (c : CoreId) (w : W256) : Prop :=
  fetchReady s c = true ∧ fetchWord s c = some w ∧ wordLegal s c w = true ∧ (getCore s c).fetchCause ≠ 7 ∧
  (getCore s c).fetchDone = false ∧ (wDp w && (getCore s c).snap.isSome) = false

/-- The fill that takes the running task's next ring slot (R70). -/
def NextFill (s : State) (c : CoreId) (tag : BitVec 20) (rows : Nat) (f : Fill) : Prop :=
  f.slot = nextRingSlot s c (getCore s c).task ∧ f.tag = tag ∧ f.rowsLeft = rows ∧ f.counted = false ∧ f.cancelled = false ∧
  f.lo = slotRow s c (getCore s c).task (nextRingSlot s c (getCore s c).task) ∧ f.hi = f.lo + 31

/-! ## Accesses of masters (R457 to R461, R577 to R579) -/

/-- A master's access reaches the module and is admitted: its target is not fenced, a window grants it, its place and shape
exist (R460, R578, R579). -/
def Admitted (s : State) (m : Master) (write : Bool) (a len : Nat) : Prop :=
  reaches s m = true ∧ (screenAccess s m write a len).1 = .ok

/-- The access was answered with a status and no data. -/
def Answered (t : State) (st : Status) : Prop := t.reply = some ⟨st, []⟩

/-! ## Garnet lines, the gateway (R256 to R266, R312 to R331) -/

/-- A member has taken a line's release: its arrival is cleared, the release counted, its counter gets 1 (R260). -/
def TookRelease (s t : State) (n : Nat) (c : Nat) : Prop :=
  getB t (garReg c n) 10 = false ∧ getF t (garReg c n) 31 16 = (getF s (garReg c n) 31 16 + 1) % 65536 ∧
  getCore t c = { getCore s c with ctrAdd := (getCore s c).ctrAdd ++ [(getF s (garReg c n) 4 0, 1)] }

/-- The register of the central counter of a group of a line (R265). -/
def groupReg (n g : Nat) : Nat := modReg (oGarFbexpG + 0x80 * n + 8 * g)

/-- Carnelian's collector has got one record more, with a name and a unit. -/
def CarRecord (s t : State) (name : FaultName) (unit : Nat) : Prop :=
  ∃ r, t.carQ = s.carQ ++ [r] ∧ r.name = name ∧ r.unit = unit

/-- A field's collector with room has got one record more, with a name (R540). -/
def FieldRecord (s t : State) (f : Nat) (name : FaultName) : Prop :=
  ((getField s f).faultQ.filter fun q => !q.cont).length < 64 → ∃ r, (getField t f).faultQ = (getField s f).faultQ ++ [r] ∧ r.name = name

/-- The one request that waits at a gateway's input may be admitted now (R314, R325, R326). -/
def OneAtInput (s : State) (f : Nat) (u : Txn) : Prop :=
  (getField s f).txns.filter (·.stage == .input) = [u] ∧ hasRoom (quartz s) (getField s f) u = true ∧
  ((getField s f).admNow.1 ≠ quartz s ∨ (getField s f).admNow.2 < 4) ∧
  ((u.cls = 0 ∧ u.sent + 60 ≤ s.ns) ∨ (1 ≤ u.cls ∧ u.cls ≤ 3 ∧ (u.cls = 1 → inBrace s = false)))

/-- A channel of a field serves a granule of a transaction in this slot (R311, R315). -/
def Serves (s : State) (f ch : Nat) (u : Txn) (i : Nat) : Prop :=
  fieldFenced s f = false ∧ getB s (fieldReg f oGwStatus) 44 = false ∧ 3 ≤ quartz s % 128 ∧
  smGet 0 ch (getField s f).chUsed ≠ quartz s + 1 ∧ nextGranule (getField s f) ch = some (u, i) ∧ u.admitted + 10 ≤ s.ns

/-- A refresh slot of a field that has not yet been counted: one of the 88 reserved slots of a frame that are no scrub slots (R311). -/
def Refreshes (s : State) (f : Nat) : Prop :=
  fieldFenced s f = false ∧ getB s (fieldReg f oGwStatus) 44 = false ∧ quartz s % 128 < 3 ∧
  ¬ (quartz s % 128 = 0 ∧ quartz s / 128 % 4 = 0) ∧ (getField s f).refUsed ≠ quartz s + 1

/-- A channel's scrub engine works in this slot (R323). -/
def Scrubs (s : State) (f ch : Nat) : Prop :=
  fieldFenced s f = false ∧ getB s (fieldReg f oGwStatus) 44 = false ∧ getB s (fieldReg f oGwScrub) 63 = true ∧
  quartz s % 128 = 0 ∧ quartz s / 128 % 4 = 0 ∧ smGet 0 ch (getField s f).scrubUsed ≠ quartz s + 1 ∧
  (getField s f).scrubFix.contains ch = false

/-- A refused register write: the answer says so, nothing but records of the refusal changes. -/
def WriteRefused (s t : State) : Prop :=
  Answered t .configRejected ∧ SameMem s t ∧ (∀ c, getCore t c = getCore s c) ∧ (∀ k, getClu t k = getClu s k) ∧ t.clk = s.clk

/-! ## Clocks and links (R336 to R405) -/

/-- The module has come to a hush of a kind: every field has stopped (R353). -/
def Hushed (s t : State) (kind : Nat) : Prop :=
  t.clocksOn = false ∧ t.clk.kind = kind ∧ t.clk.since = s.ns ∧ SameMem s t ∧ (∀ c, getCore t c = getCore s c) ∧
  (s.shadow = [] → getB t (modReg oClkHushStatus) 34 = true ∧ getF t (modReg oClkHushStatus) 33 32 = kind ∧
    ∀ f, f < 64 → getReg t (fieldReg f oFldSlackLast) = getReg s (fieldReg f oFldSlack) ∧ getReg t (fieldReg f oFldSlack) = 0#64)

/-- A link has failed for a cause: it is DOWN, the failure is counted and recorded, what LINK_DOWN completes is noted (R397). -/
def LinkFailed (s t : State) (l cause : Nat) : Prop :=
  lnkState t l = 4 ∧ getF t (linkReg l oLnkEvents) 63 48 = (getF s (linkReg l oLnkEvents) 63 48 + 1) % 65536 ∧
  (getB s (linkReg l oLnkDownInfo) 63 = false → getB t (linkReg l oLnkDownInfo) 63 = true ∧ getF t (linkReg l oLnkDownInfo) 62 56 = cause) ∧
  (getLink t l).step = 0 ∧ (getLink t l).failing = (if lnkState s l = 3 then some cause else (getLink s l).failing) ∧
  SameMem s t ∧ ∀ c, getCore t c = getCore s c

/-- A link's training has begun (R375, R399). -/
def Trains (s t : State) (l : Nat) : Prop :=
  lnkState t l = 1 ∧ (getLink t l).step = 1 ∧ (getLink t l).since = s.ns ∧
  (getLink t l).quiet = (decide (lnkState s l = 4) || (getLink s l).quiet) ∧
  getF t (linkReg l oLnkEvents) 47 32 = (getF s (linkReg l oLnkEvents) 47 32 + 1) % 65536 ∧ SameMem s t ∧ ∀ c, getCore t c = getCore s c

/-- No cell of a link waits for a receipt or a position. -/
def NothingInFlight (s : State) (l : Nat) : Prop :=
  (∀ k ∈ (getLink s l).sent, k.core = none) ∧ (getLink s l).pre = [] ∧ ∀ q, q < 64 → readyCells s l q = 0

/-- A planned position of a link has come to its prefetch point; its channel q is fed by a ring of the port core, and no cell of
it waits for a position (R382 to R384). -/
def PlansPosition (s : State) (l n p q : Nat) : Prop :=
  3 ≤ lnkState s l ∧ (getLink s l).pos < posNo n p ∧ p < (if isV12 s l then 480 else 1920) ∧
  posTime s l n p ≤ quartz s * 6400 + 6399 + 200 * 6400 ∧ p % 8 ≠ 7 ∧ bitsOf (planEntry s l n p) 31 30 = 1 ∧
  bitsOf (planEntry s l n p) 5 0 = q ∧ carries s l = true ∧ (getLink s l).sent.length + (getLink s l).pre.length < 4096 ∧
  getB s (lchReg l q) 62 = false ∧ waitingCells (getLink s l) q = 0

/-- A channel's port core has a cell readied and is not fenced, and the peer's generation gate is open (R384, R413). -/
def ReadyCell (s : State) (l q : Nat) : Prop :=
  let core := portCore l (getF s (lchReg l q) 61 56)
  0 < readyCells s l q ∧ coreFenced s core = false ∧ genOpen s l (getF s (coreReg core oCoreCtrStatus) 19 16) = true

/-- A cell of the reverse direction that says nothing but its own cell. -/
def PlainCell (c : Cell) : Prop := c.empty = false ∧ c.replay = false ∧ c.ack = none ∧ c.nak = none ∧ c.slip = none

/-- What is held for a first transmission received in a position (R386). -/
def heldOf (s : State) (l n p : Nat) (c : Cell) : HeldCell :=
  ⟨relTime s l n p, n + (relTime s l n p - 6400 * frameTime s n) / 12800000, c.lch, c.seq, c.gen, c.rows, c.good, false⟩

/-- A link may replay in a reserve position (R391). -/
def ReplaySlot (s : State) (l n p : Nat) : Prop :=
  lnkState s l = 3 ∧ lnkState s (engineOf s l) = 3 ∧ p % 8 = 7 ∧ (getLink s l).resv < posNo n p ∧
  altActive s (planEntry s l n p) = false ∧ reached s (posTime s l n p) = true

/-! ## Host port and mailboxes (R463 to R473) -/

/-- Firmware comes to a command with an opcode, the only one posted in its mailbox, and executes it (R469 to R472). -/
def Posted (s : State) (m : Fin 4) (op : Nat) (lenOk : Nat → Bool) : Prop :=
  mbReady s m op = true ∧ unanswered s m (mbTail s m) = 1 ∧ s.host.discard.getD m 0 = 0 ∧ mbRefusal s m op lenOk = none

/-- A response stands in the slot of the mailbox's oldest command, and done has advanced (R469, R471). -/
def Responded (s t : State) (m : Fin 4) (st : Nat) (res : List Byte) : Prop :=
  rdBytes t (mbSlot s m + 0x4000) (8 + res.length) = rdBytes s (mbSlot s m) 4 ++ natLe 2 st ++ natLe 2 res.length ++ res ∧
  getF t (mbRspReg m) 6 0 = (mbDone s m + 1) % 128

/-- A packet of an RDMA request has entered the gateway of its field. -/
def RdmaSent (s t : State) (g : Fin 32) (j : Fin 8) (write : Bool) (a len : Nat) (data : List Byte) : Prop :=
  t = { s with fields := t.fields } ∧ SameFieldsBut s t (a / 0x400000000) ∧
  ∃ u, (getField t (a / 0x400000000)).txns = (getField s (a / 0x400000000)).txns ++ [u] ∧ u.cls = 3 ∧ u.write = write ∧ u.addr = a ∧
    u.len = len ∧ (write = true → u.data = data) ∧ u.dest = .rdma g (40 + j.val) ∧ u.stage = .input

/-! ## Power, boot, registers (R15, R474 to R522, R552, R553) -/

/-- The module has lost its power: every store, register and engine is at reset but the flash, the pins, the shutdown record
and the input's measurements (R500, R508). -/
def PoweredOff (s t : State) (cause : Nat) : Prop :=
  t.boot.power = false ∧ t.mem = [] ∧ t.cores = [] ∧ t.clus = [] ∧ t.boot.flash = s.boot.flash ∧ t.pwr.discharge = true ∧ t.host.link = false ∧
  getReg t (modReg oPwrShutdown) = BitVec.ofNat 64 (2 ^ 63 + cause) ∧ getReg t (modReg oPwrInput) = getReg s (modReg oPwrInput)

/-- A row of the SMBus reads: command, bytes, value. -/
structure SmbRow where
  cmd : Bool → Instr
  n : Nat
  val : State → Nat

/-- The reads of R474 that return one refreshed value. -/
def smbReads : List SmbRow :=
  [ ⟨.vin, 2, fun s => s.smb.vin⟩, ⟨.iin, 2, fun s => s.smb.iin⟩, ⟨.pin, 2, fun s => s.smb.pin⟩, ⟨.pcap, 2, fun s => s.smb.pcap⟩,
    ⟨.energy, 8, fun s => s.smb.energy⟩, ⟨.holdup, 2, fun s => s.smb.holdup⟩, ⟨.tIn, 2, fun s => s.smb.tIn⟩,
    ⟨.tOut, 2, fun s => s.smb.tOut⟩, ⟨.tMax, 2, fun s => s.smb.tMax⟩, ⟨.alertStatus, 2, fun s => s.smb.alert⟩ ]

/-- A module reset with a cause: ROM onward; stacked memory below 2^40 and Quartz time are kept, every core and cluster is at
reset, on-wafer stores read as zero (R509, R513). -/
def ModuleWasReset (s t : State) (cause : Nat) : Prop :=
  getF t (modReg oCarResetInfo) 7 0 = cause ∧ getF t (modReg oCarResetInfo) 63 32 = (getF s (modReg oCarResetInfo) 63 32 + 1) % 2 ^ 32 ∧
  stageOf t = 0 ∧ t.cores = [] ∧ t.clus = [] ∧ t.boot.prog = none ∧ t.pending = s.pending ∧ quartz t = quartz s

/-- The master that a watchdog's kick register belongs to (R511). -/
def dogOwner (n : Fin 5) : Master → Bool
  | .boot => n.val = 0
  | .app i => n.val = i.val + 1
  | _ => false

/-- A store's write was taken: the bytes stand there, and nothing else has changed. -/
def StoreWritten (s t : State) (a : Nat) (data : List Byte) : Prop :=
  Answered t .ok ∧ rdBytes t a data.length = data ∧ SameMemOutside s t a data.length ∧ t = { s with mem := t.mem, reply := t.reply }

/-- A locked store has refused a write: nothing is stored, the refusal is counted in a register's bits 31:0. -/
def StoreRefused (s t : State) (r : Nat) : Prop :=
  Answered t .storeLocked ∧ SameMem s t ∧ (∀ c, getCore t c = getCore s c) ∧ (∀ k, getClu t k = getClu s k) ∧
  getF t r 31 0 = (getF s r 31 0 + 1) % 2 ^ 32

/-! ## Reset values (R582) and shapes -/

/-- A row of R582: block (0 core, 1 cluster, 2 field, 3 module, 4 tensor link, 5 service link), first offset, stride, registers, value. -/
structure ResetRow where
  blk : Nat
  off : Nat
  stride : Nat
  n : Nat
  val : Nat

/-- The table of R582, without the fused registers. -/
def resetTable : List ResetRow :=
  [ ⟨2, 0x0100, 8, 16, 0x8080808080808080⟩, ⟨0, 0x0080, 8, 8, 0x1000000⟩, ⟨1, 0x0040, 8, 8, 0x1000000⟩, ⟨0, 0x0800, 8, 1, 0x20FFFF⟩,
    ⟨0, 0x0900, 8, 16, 0x2000000000000000⟩, ⟨1, 0x0140, 8, 1, 1⟩, ⟨3, 0x0480, 8, 1, 0x0100000000000007⟩, ⟨2, 0x1008, 8, 1, 0x0408008001000000⟩,
    ⟨2, 0x1010, 8, 1, 0x000186A000030D40⟩, ⟨2, 0x1110, 8, 1, 0x8000000000000000⟩, ⟨3, 0x1000, 8, 1, 0xC⟩, ⟨3, 0x1040, 8, 1, 0x1020002⟩,
    ⟨3, 0x1110, 8, 1, 0x200⟩, ⟨2, 0x0720, 8, 4, 0xFFFFFFFFFFFFFFFF⟩, ⟨4, 0x0000, 8, 1, 8⟩, ⟨4, 0x0030, 8, 1, 0x47E⟩,
    ⟨4, 0x0400, 8, 64, 0x7C0000000⟩ ] ++
  [ ⟨3, 0x2010, 8, 1, 0x1000⟩, ⟨3, 0x2100, 8, 1, 0x10000⟩, ⟨3, 0x2110, 8, 1, 0x012C000000000000⟩, ⟨3, 0x2118, 8, 1, 0xFF00000000⟩,
    ⟨3, 0x2128, 8, 1, 0xFFFFFFFFFFFF⟩, ⟨3, 0x1140, 8, 1, 0xFF⟩, ⟨3, 0x3000, 8, 1, 0xFF00⟩, ⟨3, 0x3070, 8, 1, 0x040000002710⟩,
    ⟨3, 0x3900, 8, 1, 0xE⟩, ⟨5, 0x0000, 8, 1, 0x6C⟩, ⟨3, 0x7000, 8, 1, 0x301⟩, ⟨3, 0x7008, 8, 1, 0x64⟩, ⟨3, 0x8000, 8, 1, 0x096000005DC0⟩,
    ⟨3, 0x8008, 8, 1, 0x07D0003C00000014⟩, ⟨3, 0x8038, 8, 1, 0x96⟩, ⟨3, 0x8048, 8, 1, 0x17700000695F⟩, ⟨2, 0x0B40, 8, 1, 0x1E⟩,
    ⟨3, 0x9040, 16, 1, 0x3E8⟩, ⟨3, 0x9050, 16, 4, 0x64⟩, ⟨2, 0x3040, 8, 1, 0x4000000000000000⟩, ⟨2, 0x3048, 8, 1, 0x3FFF000000000⟩ ]

/-- What R582 lists for an offset of a block, 0 where it lists nothing. -/
def resetListed (blk o : Nat) : Nat :=
  match resetTable.find? fun r => r.blk == blk && decide (r.off ≤ o) && decide (o < r.off + r.stride * r.n) && (o - r.off) % r.stride == 0 with
  | some r => r.val
  | none => 0

/-- The reset value that R582 gives the register at a place, with what is fused. -/
def resetOf : Place → W64
  | .core _ o => BitVec.ofNat 64 (resetListed 0 (o - 0x18000))
  | .cluster _ o => BitVec.ofNat 64 (resetListed 1 o)
  | .field f o =>
    if o = 0 then BitVec.ofNat 64 (f / 8 * 256 + f % 8 * 16 + 1)
    else if 0xC00 ≤ o ∧ o < 0xE00 ∧ o % 8 = 0 then (Config.actCoef f ((o - 0xC00) / 8)).zeroExtend 64
    else BitVec.ofNat 64 (resetListed 2 o)
  | .module o =>
    if o = 0 then BitVec.ofNat 64 (0x0064008800000000 + (if Config.gradeTwo then 2 else 1) * 2 ^ 44 + Config.stepping.toNat * 2 ^ 40)
    else if o = 0x1008 then (if Config.gradeTwo then 0x3C000000F0C#64 else 0x3C00000120C#64)
    else if o = 0xA020 then BitVec.ofNat 64 (Config.stepping.toNat * 2 ^ 28 + 0x6454B)
    else BitVec.ofNat 64 (resetListed 3 o)
  | .link l o =>
    if l < 40 then BitVec.ofNat 64 (resetListed 4 o)
    else if o = 0x10 then (Config.serviceMac (l - 40)).zeroExtend 64
    else BitVec.ofNat 64 (resetListed 5 o)
  | _ => 0#64

/-- The lists of fixed length keep their length, a core's task is one of its four, no link is listed twice: what statements
take for granted of a state. -/
structure Shapes (s : State) : Prop where
  tasks : ∀ c, FourTasks s c
  cmdTask : ∀ c, ∀ k ∈ (getCore s c).cmds, k.task < 4
  lanes : ∀ c, (getCore s c).lanes.length = 2
  regs : ∀ k, SixteenRegs s k
  dogs : s.boot.dogs.length = 5
  slots : s.boot.slots.length = 2
  sessions : s.host.sessions.length = 4
  discard : s.host.discard.length = 4
  links : (smKeys s.links).Nodup

/-- The byte memory is canonical and the shapes hold. -/
def WellKept (s : State) : Prop := MemCanon s ∧ Shapes s

end Sys2Proof.Machine
end

