-- ==== Sys2Proof/Certificates/Slice0/Obligations.lean ====
section
/-! DEFINITION. Certificates/Slice0/Obligations.lean: the statements about the module, for the provers. -/
open Sys2Proof Sys2Proof.Machine

/-- A step takes the command at the front of the queue: it is exec of it, on the state with the rest of the queue. -/
def Obligations.StepRunsFrontCommand : Prop :=
  ∀ (s : State) (i : Instr) (rest : List Instr), step { s with pending := i :: rest } = exec i { s with pending := rest }

/-- Steward arithmetic, logic, shifts and compares (R226, R228): the result goes to rd, s0 stays zero, one cycle. -/
def Obligations.StewardArithmetic : Prop :=
  ∀ row ∈ stewardArith, ∀ (s : State) (k : CluId), StewardIssues s k row.op → SixteenRegs s k →
    ∃ t, exec (row.cmd k) s = .next t ∧ OnlySteward s t k ∧ StewardNext s t k 1 ∧
      StewardWrote s t k (swRd (stewAt s k))
        (row.val (sreg (getClu s k) (swRa (stewAt s k))) (sreg (getClu s k) (swRb (stewAt s k))) (stewAt s k))

/-- LD and ST at an aligned address below 0x4000 (R226, R227): the word goes to rd, or the bytes of rd, lowest first, to
memory, and no other byte changes. -/
def Obligations.StewardLoadStore : Prop :=
  ∀ (s : State) (k : CluId), SixteenRegs s k →
    let w := stewAt s k
    let a := (sreg (getClu s k) (swRa w) + BitVec.ofInt 32 (signedOf 14 (swImm w))).toNat
    a % 4 = 0 → a < 0x4000 →
    (StewardIssues s k 0x18 → ∃ t, exec (.ld k) s = .next t ∧ OnlySteward s t k ∧ StewardNext s t k 1 ∧
      StewardWrote s t k (swRd w) (BitVec.ofNat 32 (rdNat s (stewMem k a) 4))) ∧
    (StewardIssues s k 0x19 → ∃ t, exec (.st k) s = .next t ∧
      (∀ i, i < 4 → rdByte t (stewMem k a + i) = BitVec.ofNat 8 ((sreg (getClu s k) (swRd w)).toNat / 256 ^ i)) ∧
      SameMemOutside s t (stewMem k a) 4 ∧ t = { s with clus := t.clus, fields := t.fields, mem := t.mem } ∧
      SameClusBut s t k ∧ OnlyActs s t ∧
      getClu t k = { getClu s k with pc := ((getClu s k).pc + 1) % 4096, freeAt := s.cycle + 1 })

/-- INBV and INBI of an inbox entry (R226, R227): INBV reads the value and clears fresh and lost, INBI reads fresh, lost,
kind and index and clears nothing. -/
def Obligations.StewardInbox : Prop :=
  ∀ (s : State) (k : CluId), SixteenRegs s k →
    let w := stewAt s k
    let e := (sreg (getClu s k) (swRa w) + BitVec.ofNat 32 (swImm w)).toNat
    let v := (getReg s (inbox k e)).toNat
    e ≤ 255 →
    (StewardIssues s k 0x1A → ∃ t, exec (.inbv k) s = .next t ∧ StewardNext s t k 1 ∧
      StewardWrote s t k (swRd w) (BitVec.ofNat 32 v) ∧
      getB t (inbox k e) 49 = false ∧ getB t (inbox k e) 48 = false ∧
      getF t (inbox k e) 63 50 = getF s (inbox k e) 63 50 ∧ getF t (inbox k e) 47 0 = getF s (inbox k e) 47 0 ∧
      SameRegsBut s t (· = inbox k e) ∧ t = { s with clus := t.clus, fields := t.fields, regs := t.regs } ∧
      SameMem s t ∧ SameClusBut s t k ∧ OnlyActs s t) ∧
    (StewardIssues s k 0x1B → ∃ t, exec (.inbi k) s = .next t ∧ OnlySteward s t k ∧ StewardNext s t k 1 ∧
      StewardWrote s t k (swRd w)
        (BitVec.ofNat 32 (bitsOf v 49 49 * 2 ^ 31 + bitsOf v 48 48 * 2 ^ 30 + bitsOf v 63 60 * 2 ^ 16 + bitsOf v 47 32)))

/-- An LD or ST address that is unaligned or at or above 0x4000, an inbox entry above 255, a TSLD or TSST offset that is
unaligned or at or above 0xC000 (R227): BOUND_VIOLATION, and nothing is read or written. A reserved opcode or a non-zero unused field
faults the steward, whichever instruction was to issue (R225, R227, R245). -/
def Obligations.StewardFaults : Prop :=
  (∀ (s : State) (k : CluId),
    let w := stewAt s k
    let a := (sreg (getClu s k) (swRa w) + BitVec.ofInt 32 (signedOf 14 (swImm w))).toNat
    let o := (sreg (getClu s k) (swRa w) + BitVec.ofNat 32 (swImm w)).toNat
    (∀ row ∈ [(Instr.ld, 0x18), (Instr.st, 0x19)], StewardIssues s k row.2 → (a % 4 ≠ 0 ∨ 0x4000 ≤ a) →
      ∃ t, exec (row.1 k) s = .next t ∧ StewardFaulted s t k 2) ∧
    (∀ row ∈ [(Instr.inbv, 0x1A), (Instr.inbi, 0x1B)], StewardIssues s k row.2 → 255 < o →
      ∃ t, exec (row.1 k) s = .next t ∧ StewardFaulted s t k 2) ∧
    (∀ row ∈ [(Instr.tsld, 0x1C), (Instr.tsst, 0x1D)], StewardIssues s k row.2 → (o % 4 ≠ 0 ∨ 0xC000 ≤ o) →
      ∃ t, exec (row.1 k) s = .next t ∧ StewardFaulted s t k 2)) ∧
  (∀ cmd ∈ stewardCommands, ∀ (s : State) (k : CluId), stewReady s k = true → swLegal (stewAt s k) = false →
    ∃ t, exec (cmd k) s = .next t ∧ StewardFaulted s t k 1)

/-- Branches, JAL, JR, NOP and HALT (R226, R228): targets are word numbers modulo 4,096, and a jump takes two cycles. -/
def Obligations.StewardControlFlow : Prop :=
  (∀ row ∈ stewardBranches, ∀ (s : State) (k : CluId), StewardIssues s k row.op →
    ∃ t, exec (row.cmd k) s = .next t ∧ OnlySteward s t k ∧
      let x := getClu s k
      let w := stewAt s k
      (row.cond (sreg x (swRa w)) (sreg x (swRb w)) →
        getClu t k = { x with pc := (((x.pc : Int) + signedOf 14 (swImm w)) % 4096).toNat, freeAt := s.cycle + 2 }) ∧
      (¬ row.cond (sreg x (swRa w)) (sreg x (swRb w)) →
        getClu t k = { x with pc := (x.pc + 1) % 4096, freeAt := s.cycle + 1 })) ∧
  ∀ (s : State) (k : CluId),
    let x := getClu s k
    let w := stewAt s k
    (StewardIssues s k 0x26 → SixteenRegs s k → ∃ t, exec (.jal k) s = .next t ∧ OnlySteward s t k ∧
      getClu t k = { x with regs := (getClu t k).regs, pc := swImm w % 4096, freeAt := s.cycle + 2 } ∧
      StewardWrote s t k (swRd w) (BitVec.ofNat 32 ((x.pc + 1) % 4096))) ∧
    (StewardIssues s k 0x27 → ∃ t, exec (.jr k) s = .next t ∧ OnlySteward s t k ∧
      getClu t k = { x with pc := (sreg x (swRa w)).toNat % 4096, freeAt := s.cycle + 2 }) ∧
    (StewardIssues s k 0x00 → ∃ t, exec (.nop k) s = .next t ∧ OnlySteward s t k ∧
      getClu t k = { x with pc := (x.pc + 1) % 4096, freeAt := s.cycle + 1 }) ∧
    (StewardIssues s k 0x2E → ∃ t, exec (.halt k) s = .next t ∧ OnlySteward s t k ∧
      getClu t k = { x with mode := .halted, pc := (x.pc + 1) % 4096, freeAt := s.cycle + 1 })

/-- QTIME, CYC, DPTAG and NOTIFY (R226, R231, R232, R247): the field's Quartz time and its latch, the cycle count, the arrival
record, the code posted. -/
def Obligations.StewardReports : Prop :=
  ∀ (s : State) (k : CluId), SixteenRegs s k →
    let x := getClu s k
    let w := stewAt s k
    let q := getReg s (fieldReg (k / 256) oFldQtzTime)
    let c := coreOfClu k ((sreg x (swRa w)).toNat % 64)
    let n := cluReg k oCluNotify
    (StewardIssues s k 0x2B → bitOf (swImm w) 0 = false → ∃ t, exec (.qtime k) s = .next t ∧ OnlySteward s t k ∧
      StewardWrote s t k (swRd w) (q.setWidth 32) ∧
      getClu t k = { x with regs := (getClu t k).regs, latch := BitVec.ofNat 32 (q.toNat / 2 ^ 32), pc := (x.pc + 1) % 4096, freeAt := s.cycle + 1 }) ∧
    (StewardIssues s k 0x2B → bitOf (swImm w) 0 = true → ∃ t, exec (.qtime k) s = .next t ∧ OnlySteward s t k ∧
      StewardWrote s t k (swRd w) x.latch ∧ StewardNext s t k 1) ∧
    (StewardIssues s k 0x2C → ∃ t, exec (.cyc k) s = .next t ∧ OnlySteward s t k ∧
      StewardWrote s t k (swRd w) (BitVec.ofNat 32 s.cycle) ∧ StewardNext s t k 1) ∧
    (StewardIssues s k 0x1F → ∃ t, exec (.dptag k) s = .next t ∧ OnlySteward s t k ∧ StewardNext s t k 1 ∧
      (arrivalSeen s c = true → StewardWrote s t k (swRd w) (BitVec.ofNat 32
        (2 ^ 31 + ((getCore s c).mode == .stopped).toNat * 2 ^ 30 + (getCore s c).arrTag.toNat))) ∧
      (arrivalSeen s c = false → ∀ r, r < 16 → r ≠ 0 → r = swRd w → (sreg (getClu t k) r).toNat < 2 ^ 20)) ∧
    (StewardIssues s k 0x2D → ∃ t, exec (.notify k) s = .next t ∧
      getB t n 63 = true ∧ getF t n 47 32 = (getF s n 47 32 + 1) % 2 ^ 16 ∧ getF t n 31 0 = (sreg x (swRa w)).toNat ∧
      SameRegsBut s t (fun a => a = n ∨ a = fieldReg (k / 256) oFldTraceStatus) ∧ SameMem s t ∧
      (∀ c, getCore t c = getCore s c) ∧ SameClusBut s t k ∧
      getClu t k = { x with pc := (x.pc + 1) % 4096, freeAt := s.cycle + 1 })

/-- TSLD, TSST and CTRINC (R226, R228): a background read or write of the named core's tile store is asked for, or a counter
update follows two cycles later or after every earlier TSST. -/
def Obligations.StewardTileAndCounters : Prop :=
  ∀ (s : State) (k : CluId),
    let x := getClu s k
    let w := stewAt s k
    let a := (sreg x (swRa w) + BitVec.ofNat 32 (swImm w)).toNat
    let c := coreOfClu k ((sreg x (swRb w)).toNat % 64)
    (StewardIssues s k 0x1C → a % 4 = 0 → a < 0xC000 → stewGranted s c a false = true →
      ∃ t, exec (.tsld k) s = .next t ∧ t = { s with clus := t.clus, fields := t.fields, cores := t.cores } ∧
        SameMem s t ∧ SameClusBut s t k ∧ SameCoresBut s t c ∧ OnlyActs s t ∧
        getCore t c = { getCore s c with bgr := (getCore s c).bgr ++ [⟨.steward (a % 32), a / 32⟩] } ∧
        getClu t k = { x with pc := (x.pc + 1) % 4096, freeAt := s.cycle + 4, tsld := some (swRd w, s.cycle) }) ∧
    (StewardIssues s k 0x1D → a % 4 = 0 → a < 0xC000 → stewGranted s c a true = true →
      ∃ t, exec (.tsst k) s = .next t ∧ t = { s with clus := t.clus, fields := t.fields, cores := t.cores } ∧
        SameMem s t ∧ SameClusBut s t k ∧ SameCoresBut s t c ∧ OnlyActs s t ∧
        getCore t c = { getCore s c with bgw := (getCore s c).bgw ++
          [⟨.steward x.tsstNext, a / 32, partRow (a % 32) (natLe 4 (sreg x (swRd w)).toNat)⟩] } ∧
        getClu t k = { x with pc := (x.pc + 1) % 4096, freeAt := s.cycle + 1, tsstNext := x.tsstNext + 1,
                              tsstOut := x.tsstOut ++ [x.tsstNext] }) ∧
    (StewardIssues s k 0x1E → ∃ t, exec (.ctrinc k) s = .next t ∧ OnlySteward s t k ∧
      getClu t k = { x with pc := (x.pc + 1) % 4096, freeAt := s.cycle + 1, incs := x.incs ++
        [⟨s.cycle + 2, x.tsstNext, if bitOf (swImm w) 13 then none else some ((sreg x (swRb w)).toNat % 64),
          swImm w % 32, BitVec.ofNat 16 (sreg x (swRa w)).toNat⟩] })

/-- A CTRINC is applied to its counter of one core, or of all 64, unless the core is fenced (R226, R228, R244). A summary word lands
in its cluster (R214), and at the end of the cycle it stands in its inbox entry (R229, R230): it sets fresh, and lost with a
count where fresh was set. -/
def Obligations.IncrementsAndSummaries : Prop :=
  (∀ (s : State) (k : CluId) (i : CtrInc), s.clocksOn = true → cluFenced s k = false →
    ((getClu s k).incs.find? fun j => incReady s (getClu s k) j) = some i →
    ∃ t, exec (.ctrincApply k) s = .next t ∧ SameMem s t ∧ SameRegs s t ∧ SameClusBut s t k ∧
      getClu t k = { getClu s k with incs := (getClu s k).incs.erase i } ∧
      ∀ n, n < 64 → getCore t (coreOfClu k n) =
        if i.core.all (· == n) && !coreFenced s (coreOfClu k n) then
          { getCore s (coreOfClu k n) with ctrAdd := (getCore s (coreOfClu k n)).ctrAdd ++ [(i.ctr, (i.amt.toNat : Int))] }
        else getCore s (coreOfClu k n)) ∧
  (∀ (s : State) (c : CoreId) (slot : Nat) (v : W64) (rest : List (Nat × W64)), (getCore s c).summ = (slot, v) :: rest →
    s.clocksOn = true → coreFenced s c = false →
    ∃ t, exec (.summaryLanded c) s = .next t ∧ SameMem s t ∧ SameCoresBut s t c ∧ SameClusBut s t (cluOf c) ∧
      getCore t c = { getCore s c with summ := rest } ∧
      getClu t (cluOf c) = { getClu s (cluOf c) with landed := (getClu s (cluOf c)).landed ++ [(4 * localOf c + slot % 4, v)] } ∧
      getF t (coreReg c oCoreVxStats) 63 32 = (getF s (coreReg c oCoreVxStats) 63 32 + 1) % 2 ^ 32 ∧
      SameRegsBut s t (· = coreReg c oCoreVxStats)) ∧
  ∀ (s : State) (k : CluId) (e : Nat) (v : W64), (getClu s k).landed = [(e, v)] → e < 256 →
    let a := inbox k e
    let t := enterSummaries s k
    getB t a 49 = true ∧ getF t a 47 0 = v.toNat % 2 ^ 48 ∧ getF t a 63 60 = v.toNat / 2 ^ 60 ∧
    (getB s a 49 = true → getB t a 48 = true) ∧
    (getReg t (cluReg k oCluInboxLost)).toNat = ((getReg s (cluReg k oCluInboxLost)).toNat + (getB s a 49).toNat) % 2 ^ 64 ∧
    getClu t k = { getClu s k with landed := [] } ∧ SameMem s t ∧ (∀ c, getCore t c = getCore s c) ∧
    SameRegsBut s t (fun b => b = a ∨ b = cluReg k oCluInboxLost)

/-- WAITDP, its completion and its horizon (R233, R234): it completes when the last arrival becomes visible, and an unmet wait
past its horizon is WAIT_TIMEOUT. SETNX and RELEASE (R226, R235, R236, R239): the table's entries; the redirect of every core in HELD,
14 cycles on, with its own entry. Without a completed WAITDP it is DECISION_EARLY. -/
def Obligations.Decisions : Prop :=
  (∀ (s : State) (k : CluId),
    let x := getClu s k
    let w := stewAt s k
    (StewardIssues s k 0x28 → ∃ t, exec (.waitdp k) s = .next t ∧ OnlySteward s t k ∧
      getClu t k = { x with mode := .waitdp, wait := some (s.cycle, swImm w % 8) }) ∧
    ∀ (c0 n : Nat), x.wait = some (c0, n) → s.clocksOn = true → cluFenced s k = false → x.mode = .waitdp →
      let seen := ((cluCores k).map fun c => seenFrom (getCore s c)).foldl max (c0 + 1)
      ((∀ c ∈ cluCores k, arrived s c = true) → seen ≤ c0 + getF s (cluReg k (oCluHorizon + 8 * n)) 31 0 → seen ≤ s.cycle →
        ∃ t, exec (.waitdpComplete k) s = .next t ∧ SameMem s t ∧ (∀ c, getCore t c = getCore s c) ∧ SameClusBut s t k ∧
          SameRegsBut s t (· = cluReg k oCluState) ∧ getB t (cluReg k oCluState) 4 = tagsMixed s k ∧
          getClu t k = { x with mode := .run, wait := none, waited := true, pc := (x.pc + 1) % 4096, freeAt := seen }) ∧
      ((∃ c ∈ cluCores k, arrived s c = false) → c0 + getF s (cluReg k (oCluHorizon + 8 * n)) 31 0 < s.cycle →
        ∃ t, exec (.decisionHorizon k) s = .next t ∧ StewardFaulted s t k 3)) ∧
  (∀ (s : State) (k : CluId),
    let x := getClu s k
    let w := stewAt s k
    let e := (sreg x (swRb w)).toNat % 16
    (StewardIssues s k 0x29 → ∃ t, exec (.setnx k) s = .next t ∧ SameMem s t ∧ (∀ c, getCore t c = getCore s c) ∧
      SameClusBut s t k ∧ SameRegsBut s t (fun a => ∃ q, q < 4 ∧ a = cluReg k (oCluNext + 8 * q)) ∧
      getClu t k = { x with pc := (x.pc + 1) % 4096, freeAt := s.cycle + 1 } ∧
      ∀ n, n < 64 → nextEntry t k n =
        if bitOf (swImm w) 0 ∨ n = (sreg x (swRa w)).toNat % 64 then e else nextEntry s k n) ∧
    (StewardIssues s k 0x2A → x.tsstOut = [] → x.incs = [] →
      (x.waited = true → (∀ c ∈ cluCores k, arrived s c = true) → ∃ t, exec (.release k) s = .next t ∧ SameMem s t ∧
        SameClusBut s t k ∧ SameRegsBut s t (fun a => a = cluReg k oCluStats ∨ a = cluReg k oCluDpTime) ∧
        getClu t k = { x with pc := (x.pc + 1) % 4096, freeAt := s.cycle + 1, waited := false, relFrom := none } ∧
        getF t (cluReg k oCluStats) 63 32 = (getF s (cluReg k oCluStats) 63 32 + 1) % 2 ^ 32 ∧
        ∀ n, n < 64 → getCore t (coreOfClu k n) =
          if (getCore s (coreOfClu k n)).mode = .held then
            { getCore s (coreOfClu k n) with arrAt := none, redirect := some (nextEntry s k n, s.cycle + 14) }
          else getCore s (coreOfClu k n)) ∧
      (x.waited = false → ∃ t, exec (.release k) s = .next t ∧ StewardFaulted s t k 4)))

/-- ISSUE_WORD (R39, R41, R47, R52): the word issues whole: its commands enter their queues, the at-issue signal and GE_SUB
change their counters, the phase mark is taken. Memory and the other cores are as before. DECISION_POINT, STEP_BOUNDARY and
BARRIER_ARRIVAL complete by that same issue, where the word has dp, sb or bar_en (R60, R251, R259). -/
def Obligations.WordIssuesWhole : Prop :=
  ∀ (s : State) (c : CoreId), WordIssues s c → FourTasks s c →
    let w := curWord s c
    (wBarEn w = true → MayArrive s c (wBarLine w)) →
    ∃ t, exec (.issueWord c) s = .next t ∧
      (getCore t c).cmds = (getCore s c).cmds ++ issueCmds s c w ∧
      (getCore t c).ctrAdd = (getCore s c).ctrAdd ++
        (if wSigEn w = true ∧ wSigWhen w = 0 then [(wSigCtr w, (wSigInc w : Int))] else []) ++
        (if wWaitEn w = true ∧ wWaitCond w = 2 then [(wWaitCtr w, -(wWaitVal w : Int))] else []) ∧
      (getCore t c).waitSince = none ∧ (getCore t c).considered = some s.cycle ∧
      getF t (coreReg c oCorePhase) 7 0 = wPhase w ∧
      (getCore t c).mode = (if wDp w then .drain else .run) ∧ SameMem s t ∧ SameCoresBut s t c ∧
      (wDp w = true → exec (.decisionPoint c) s = .next t) ∧ (wSb w = true → exec (.stepBoundary c) s = .next t) ∧
      (wBarEn w = true → exec (.barrierArrival c) s = .next t)

/-- Loop and control fields (R57, R58): LINIT and LINITR load a counter, LBACK decrements one that is not zero and branches
back or falls through, JUMP goes to loop_arg, END ends the task. -/
def Obligations.LoopFields : Prop :=
  ∀ (s : State) (c : CoreId), WordIssues s c → FourTasks s c → wDp (curWord s c) = false →
    let w := curWord s c
    let y := curTask (getCore s c)
    let n := y.loops.getD (wLoopLvl w) 0
    (wLoopOp w = 1 → ∃ t, exec (.linit c) s = .next t ∧ SameMem s t ∧ SameCoresBut s t c ∧
      (curTask (getCore t c)).pc = y.pc + 1 ∧
      (curTask (getCore t c)).loops = y.loops.set (wLoopLvl w) (BitVec.ofNat 32 (wLoopArg w))) ∧
    (wLoopOp w = 2 → ∃ t, exec (.linitr c) s = .next t ∧ SameMem s t ∧ SameCoresBut s t c ∧
      (curTask (getCore t c)).pc = y.pc + 1 ∧
      (curTask (getCore t c)).loops = y.loops.set (wLoopLvl w)
        (BitVec.ofNat 32 (getF s (coreReg c (oCoreLoopinit + 8 * (wLoopArg w % 4))) 31 0))) ∧
    (wLoopOp w = 3 → ∃ t, exec (.lback c) s = .next t ∧ SameMem s t ∧ SameCoresBut s t c ∧
      (n = 0#32 → (curTask (getCore t c)).pc = y.pc + 1 ∧ (curTask (getCore t c)).loops = y.loops) ∧
      (n ≠ 0#32 → (curTask (getCore t c)).pc = y.pc - wLoopArg w % 256 ∧ wLoopArg w % 256 ≤ y.pc ∧
        (curTask (getCore t c)).loops = y.loops.set (wLoopLvl w) (n - 1#32))) ∧
    (wLoopOp w = 4 → ∃ t, exec (.jump c) s = .next t ∧ SameMem s t ∧ SameCoresBut s t c ∧
      (curTask (getCore t c)).pc = wLoopArg w % 256 ∧ (curTask (getCore t c)).loops = y.loops) ∧
    (wLoopOp w = 5 → ∃ t, exec (.endI c) s = .next t ∧ SameMem s t ∧ SameCoresBut s t c ∧
      (getCore t c).ended = true ∧ (curTask (getCore t c)).pc = y.pc ∧ (curTask (getCore t c)).loops = y.loops)

/-- DECISION_POINT, STEP_BOUNDARY and BARRIER_ARRIVAL (R60, R63, R134, R251, R259): a dp word brings DRAIN and waits for its
overlay where it names one, an sb word stops issue and sets the draw counter to zero, a bar_en word raises the core's arrival on its
line; an early arrival, one on a line of which the core is not a member, or in fallback one of an unused group, is BARRIER_EARLY and
the word issues nothing (R51, R259, R265). That BARRIER_EARLY comes before the issue is the model's (log 37). -/
def Obligations.ControlBits : Prop :=
  (∀ (s : State) (c : CoreId), WordIssues s c → FourTasks s c →
    let w := curWord s c
    (wBarEn w = true → MayArrive s c (wBarLine w)) →
    (wDp w = true → ∃ t, exec (.decisionPoint c) s = .next t ∧ SameMem s t ∧ SameCoresBut s t c ∧
      (getCore t c).mode = .drain ∧ (getCore t c).dpTag = wTag w ∧ (getCore t c).ovlWait = wOvlEn w ∧
      (curTask (getCore t c)).pc = (curTask (getCore s c)).pc ∧ (curTask (getCore t c)).loops = (curTask (getCore s c)).loops) ∧
    (wSb w = true → ∃ t, exec (.stepBoundary c) s = .next t ∧ SameMem s t ∧ SameCoresBut s t c ∧
      (getCore t c).sbHold = true ∧ (getCore t c).sbArrived = false ∧ getF t (coreReg c oCoreRng) 31 0 = 0) ∧
    (wBarEn w = true → ∃ t, exec (.barrierArrival c) s = .next t ∧ SameMem s t ∧ SameCoresBut s t c ∧
      getB t (garReg c (wBarLine w)) 10 = true ∧ (getGar t (wBarLine w)).last = s.cycle ∧
      ∀ n, n < 8 → n ≠ wBarLine w → getReg t (garReg c n) = getReg s (garReg c n))) ∧
  (∀ (s : State) (c : CoreId), WordIssues s c → FourTasks s c →
    let w := curWord s c
    wBarEn w = true → ¬ MayArrive s c (wBarLine w) →
    ∃ t, exec (.barrierArrival c) s = .next t ∧ CoreFaulted s t c 0 0 (wTag w) ∧
      (∀ n, n < 8 → getReg t (garReg c n) = getReg s (garReg c n)) ∧ (curTask (getCore t c)).pc = (curTask (getCore s c)).pc)

/-- The checks of R48, in their order: an illegal word faults when it is first considered, whatever its wait; then, once the
wait is met, bounds, hazards and queue overruns fault, and nothing of the word issues. Where the checks of an overlay stand among
them is the model's (log 115). A word whose wait's horizon has passed is considered no more, and WAIT_TIMEOUT faults the core;
DEADLINE_MISS notes the missed deadline of a wait (R55, R56). -/
def Obligations.IssueChecks : Prop :=
  (∀ (s : State) (c : CoreId), Considers s c →
    let w := curWord s c
    (∀ slot, (getCore s c).waitSince = none → illegalSlot s c w = some slot →
      ∃ t, exec (.issueWord c) s = .next t ∧ CoreFaulted s t c slot 0 (wTag w)) ∧
    (WordLegal s c → waitOk s c w = true →
      (∀ slot adr, boundFail s c w = some (slot, adr) →
        ∃ t, exec (.issueWord c) s = .next t ∧ CoreFaulted s t c slot 0 (wTag w)) ∧
      (boundFail s c w = none → overlayFits s c w = false →
        ∃ t, exec (.issueWord c) s = .next t ∧ CoreFaulted s t c 0 0 (wTag w)) ∧
      (∀ a, boundFail s c w = none → overlayFits s c w = true → overlayOutside s c w = some a →
        ∃ t, exec (.issueWord c) s = .next t ∧ CoreFaulted s t c 0 0 (wTag w)) ∧
      (boundFail s c w = none → overlayFits s c w = true → overlayOutside s c w = none →
        (∀ slot other, hazardFail s c w = some (slot, other) →
          ∃ t, exec (.issueWord c) s = .next t ∧ CoreFaulted s t c slot other.toNat (wTag w)) ∧
        (∀ slot, hazardFail s c w = none → overrunFail s c w = some slot →
          ∃ t, exec (.issueWord c) s = .next t ∧ CoreFaulted s t c slot 0 (wTag w))))) ∧
  (∀ (s : State) (c : CoreId), s.clocksOn = true → (getCore s c).mode = .run →
    (horizonOver s c = true → exec (.issueWord c) s = .next s ∧ ∃ t, exec (.waitTimeout c) s = .next t ∧ CoreFaulted s t c 0 0 (wTag (curWord s c))) ∧
    ((getCore s c).waitSince ≠ none → wWaitDl (curWord s c) = true → waitOk s c (curWord s c) = false → (getCore s c).missed = false →
      deadlineOf s c < (getReg s (fieldReg (fieldOfCore c) oFldQtzTime)).toNat →
      ∃ t, exec (.deadlineMiss c) s = .next t ∧ (getCore t c).missed = true ∧ (getCore t c).waitSince = (getCore s c).waitSince ∧
        (getCore t c).mode = .run ∧ SameMem s t))

/-- Waits (R52, R55, R56): an unmet wait holds the sequencer from its first evaluation; past its horizon it is WAIT_TIMEOUT;
a missed deadline is noted once and the wait goes on. -/
def Obligations.WaitHolds : Prop :=
  ∀ (s : State) (c : CoreId),
    let w := curWord s c
    (wWaitEn w = true → waitOk s c w =
      (let ctr := (ctrVal s c (wWaitCtr w)).toNat
       let val := wWaitVal w
       if wWaitCond w = 0 then decide ((ctr + 65536 - val) % 65536 < 0x8000)
       else if wWaitCond w = 1 then decide (ctr = val)
       else if wWaitCond w = 2 then decide ((ctr + 65536 - val) % 65536 < 0x8000)
       else false)) ∧
    (wWaitEn w = false → waitOk s c w = true) ∧
    (Considers s c → WordLegal s c → waitOk s c w = false → ∃ t, exec (.issueWord c) s = .next t ∧
      t = { s with cores := t.cores } ∧ SameCoresBut s t c ∧
      getCore t c = { getCore s c with considered := some s.cycle, lastTag := wTag w,
                                       waitSince := some ((getCore s c).waitSince.getD s.cycle) }) ∧
    (s.clocksOn = true → (getCore s c).mode = .run → horizonOver s c = true →
      ∃ t, exec (.waitTimeout c) s = .next t ∧ CoreFaulted s t c 0 0 (wTag w)) ∧
    (s.clocksOn = true → (getCore s c).mode = .run → (getCore s c).waitSince.isSome = true → wWaitDl w = true →
      (getCore s c).missed = false → waitOk s c w = false →
      deadlineOf s c < (getReg s (fieldReg (fieldOfCore c) oFldQtzTime)).toNat →
      ∃ t, exec (.deadlineMiss c) s = .next t ∧ SameMem s t ∧ SameCoresBut s t c ∧
        getCore t c = { getCore s c with missed := true })

/-- COMMAND_BEGIN and COMPLETION_SIGNAL (R49, R50, R54): the oldest queued command of an engine begins, and the engine is free
again in the cycle after its last input beat; a command completes, its signal changes its counter, and its write ranges stay
pending to the end of the cycle. OVERLAY_LANDED ends an overlay's wait once every granule stands in the store, DP_ARRIVAL brings the
drained core, all its commands complete, to HELD, and REDIRECT on from there (R60, R61, R63). -/
def Obligations.CommandsBeginAndComplete : Prop :=
  (∀ (s : State) (c : CoreId) (u : EngineId) (k : Cmd),
    (engRuns s c = true → nextBegin s c u = some k → putRoom s c k = true →
      ∃ t, exec (.commandBegin c u) s = .next t ∧ SameMem s t ∧ SameCoresBut s t c ∧
        engFree (getCore t c) u = (cmdTiming s c k s.cycle).lastIn + 1 ∧
        ∃ k' ∈ (getCore t c).cmds, k'.begun = some s.cycle ∧ k'.due = (cmdTiming s c k s.cycle).due ∧
          k'.slot = k.slot ∧ k'.sig = k.sig ∧ k'.writes = k.writes) ∧
    (doneCmd s c u = some k → (getCore s c).sched.all (fun a => !a.lost || a.told) = true →
      ∃ t, exec (.completionSignal c u) s = .next t ∧ SameMem s t ∧ SameCoresBut s t c ∧
        (getCore t c).cmds = (getCore s c).cmds.erase k ∧
        (getCore t c).lateW = (getCore s c).lateW ++ [(k.issued, k.tag, k.writes)] ∧
        (getCore t c).ctrAdd = (getCore s c).ctrAdd ++ (match k.sig with | some (i, n) => [(i, (n : Int))] | none => []))) ∧
  (∀ (s : State) (c : CoreId),
    let x := getCore s c
    (x.ovlWait = true → x.ovlLeft = [] → x.ovlOut = 0 →
      ∃ t, exec (.overlayLanded c) s = .next t ∧ (getCore t c).ovlWait = false ∧ (getCore t c).mode = x.mode ∧ SameMem s t ∧ SameRegs s t) ∧
    (s.clocksOn = true → coreFenced s c = false → x.mode = .drain → x.cmds = [] → x.lateW = [] → x.considered ≠ some s.cycle →
      x.ovlWait = false → x.conv = none → x.convOut = none → x.summ = [] →
      ∃ t, exec (.dpArrival c) s = .next t ∧ (getCore t c).mode = .held ∧ (getCore t c).arrAt = some s.cycle ∧ SameMem s t) ∧
    (∀ e d, e < 16 → FourTasks s c → s.clocksOn = true → coreFenced s c = false → x.mode = .held → x.redirect = some (e, d) → d ≤ s.cycle →
      entryOk s c e = true → ∃ t, exec (.redirect c) s = .next t ∧ (getCore t c).mode = .run ∧ (getCore t c).redirect = none ∧ SameMem s t))

/-- OVERLAY_LANDED, DP_ARRIVAL and REDIRECT (R60 to R64, R231): the drained core is HELD with its arrival standing, and the
redirect brings it to its entry's task and word; an unusable entry is BOUND_VIOLATION. -/
def Obligations.DecisionPointPath : Prop :=
  ∀ (s : State) (c : CoreId),
    let x := getCore s c
    (x.ovlWait = true → x.ovlLeft = [] → x.ovlOut = 0 → ∃ t, exec (.overlayLanded c) s = .next t ∧ t = { s with cores := t.cores } ∧
      SameCoresBut s t c ∧ getCore t c = { x with ovlWait := false }) ∧
    (s.clocksOn = true → coreFenced s c = false → x.mode = .drain → x.cmds = [] → x.lateW = [] → x.considered ≠ some s.cycle →
      x.ovlWait = false → x.conv = none → x.convOut = none → x.summ = [] →
      ∃ t, exec (.dpArrival c) s = .next t ∧ SameMem s t ∧ SameCoresBut s t c ∧
        getCore t c = { x with mode := .held, arrAt := some s.cycle, prevTag := x.arrTag, arrTag := x.dpTag }) ∧
    (∀ e d, e < 16 → FourTasks s c → s.clocksOn = true → coreFenced s c = false → x.mode = .held → x.redirect = some (e, d) → d ≤ s.cycle →
      let r := coreReg c (oCoreEntry + 8 * e)
      (entryOk s c e = true → ∃ t, exec (.redirect c) s = .next t ∧ SameMem s t ∧ SameCoresBut s t c ∧
        (getCore t c).mode = .run ∧ (getCore t c).redirect = none ∧ (getCore t c).task = getF s r 9 8 ∧
        (curTask (getCore t c)).pc = getF s r 7 0) ∧
      (entryOk s c e = false → ∃ t, exec (.redirect c) s = .next t ∧ SameMem s t ∧ SameCoresBut s t c ∧
        (getCore t c).mode = .faulted ∧ (getReg t (coreReg c oCoreFaultInfo)).toNat = 2 ^ 63 + x.dpTag.toNat))

/-- Lane-wise vector commands (R47, R196): in its completion cycle the oldest begun vector command takes effect vector by
vector, in order, from the first one not yet written, each with the operands that it took, and CORE_VX_VECTORS grows by its
vectors. -/
def Obligations.VectorLaneCommands : Prop :=
  ∀ row ∈ vectorLaneRows, ∀ (s : State) (c : CoreId) (k : Cmd) (x : VxCmd), CommandDue s c .vector k → vxOf k.slot = some x →
    x.op = row.2 →
    exec (row.1 c) s = .next (markDone (addF (((List.range x.n).drop k.outN).foldl
      (fun r v => withTaken r c k (atInput k v) fun r => vecOne r c k x v) s) (coreReg c oCoreVxVectors) 63 0 x.n) c k)

/-- One vector of a lane-wise command with a vector-tile destination (R188, R193 to R197): an active lane takes the value of
the table, an inactive lane its old value or zero; no other byte changes. -/
def Obligations.VectorLaneResults : Prop :=
  ∀ row ∈ vectorLaneRows, ∀ (s : State) (c : CoreId) (k : Cmd) (x : VxCmd) (v : Nat), x.op = row.2 →
    (vdesc s c x.dst).kind = 0 → (vdesc s c x.dst).lstride = true →
    let p := (vpos (vdesc s c x.dst) v).toNat
    let t := vecOne s c k x v
    SameMemOutside s t (vtileAddr c p 0) 64 ∧ t = { s with mem := t.mem, regs := t.regs } ∧
    SameRegsBut s t (· = coreReg c oCoreArithFlags) ∧
    ∀ l, l < 16 → rdLane t c p l =
      if laneActive s c k x v l then
        vectorValue x.op x.rnd x.imm (cmdDraw c k v) (laneActive s c k x v) (laneA s c k x v) (laneB s c k x v) (laneE s c k x v) v l
      else if x.msk = 2 then 0#32 else rdLane s c p l

/-- VCVT, VCVTP, VMXQ and VMXD take effect vector by vector, VMXQ as the element row and then the scale byte of each block
(R199 to R204), from the first write not yet made. -/
def Obligations.VectorConversionCommands : Prop :=
  ∀ (s : State) (c : CoreId) (k : Cmd) (x : VxCmd), CommandDue s c .vector k → vxOf k.slot = some x →
    let done (n : Nat) (f : State → Nat → State) : Out :=
      .next (markDone (addF (((List.range n).drop k.outN).foldl f s) (coreReg c oCoreVxVectors) 63 0 x.n) c k)
    (x.op = .vcvt → exec (.vcvt c) s = done x.n fun r v => withTaken r c k (atInput k v) fun r => cvtOne r c k x v) ∧
    (x.op = .vcvtp → exec (.vcvtp c) s = done x.n fun r v => cvtpOne r c k x v) ∧
    (x.op = .vmxq → exec (.vmxq c) s = done (2 * (x.n / 2)) fun r i =>
      withTaken r c k (fun cy => atInput k (i / 2 * 2) cy || atInput k (i / 2 * 2 + 1) cy) fun r =>
        if i % 2 = 0 then mxqElems r c k x (i / 2) else mxqScale r c k x (i / 2)) ∧
    (x.op = .vmxd → exec (.vmxd c) s = done x.n fun r v => mxdOne r c k x v)

/-- One vector of a conversion into a vector tile (R199, R200, R202): each active lane is the value of its source rounded
once to the format of the destination; vector v of a VMXD is a half of block v / 2. -/
def Obligations.ConversionResults : Prop :=
  ∀ (s : State) (c : CoreId) (k : Cmd) (x : VxCmd) (v : Nat), (vdesc s c x.dst).kind = 0 → (vdesc s c x.dst).lstride = true →
    let d := vdesc s c x.dst
    let da := vdesc s c x.da
    let p := (vpos d v).toNat
    let rows := (List.range 6).map fun i => cmdRow s c k (k.tbase + (vpos da v).toNat + i) (cmdCycle k (6 * v + i))
    let blk := (cmdRow s c k (k.tbase + (vpos da (v / 2)).toNat) (cmdCycle k (2 * (v / 2)))).drop (if vfmt da = .e2m1 then 8 * da.part else 0)
    let sc := ((cmdRow s c k (k.tbase + x.imm.toNat / 32) (cmdCycle k (2 * (v / 2)))).getD (x.imm.toNat % 32 + v / 2) 0).toNat
    ∀ l, l < 16 →
      (laneActive s c k x v l = true → rdLane (cvtOne s c k x v) c p l =
        BitVec.ofNat 32 (encodeVal (vfmt d) (srcVal s c k da v l) x.rnd x.sat (cmdDraw c k v l)).1) ∧
      (laneActive s c k x v l = true → rdLane (cvtpOne s c k x v) c p l =
        BitVec.ofNat 32 (encodeVal (vfmt d) (partialVal (partialOf rows (if da.lstride then l else da.elem % 16))
          (signedOf 8 (x.imm.toNat % 256))) x.rnd x.sat (cmdDraw c k v l)).1) ∧
      rdLane (mxdOne s c k x v) c p l =
        BitVec.ofNat 32 (encodeVal .fp32 (scaleVal (decodeElem (vfmt da) (elemOf (vfmt da) blk (16 * (v % 2) + l))) sc) x.rnd x.sat
          (cmdDraw c k v l)).1

/-- Summaries (R213, R214, R216): the word goes on its way to the inbox slot that the command names; VCNT counts the active
non-zero lanes, VANY says whether there is one, VFIRST names the first. -/
def Obligations.SummaryCommands : Prop :=
  (∀ row ∈ summaryRows, ∀ (s : State) (c : CoreId) (k : Cmd) (x : VxCmd), CommandDue s c .vector k → vxOf k.slot = some x →
    x.op = row.2 →
    exec (row.1 c) s = .next (markDone (addF (((List.range 1).drop k.outN).foldl
      (fun r _ => withTaken r c k (fun _ => true) fun r => summOne r c k x) s) (coreReg c oCoreVxVectors) 63 0 x.n) c k)) ∧
  ∀ (s : State) (c : CoreId) (k : Cmd) (x : VxCmd),
    let hits := (summLanes s c k x).filter fun y => y.2.1 && nonZero (vdesc s c x.da) y.2.2
    (getCore (summOne s c k x) c).summ =
      (getCore s c).summ ++ [(x.imm.toNat % 4, summWord x.op (summValue s c k x).1 (summValue s c k x).2.1)] ∧
    SameMem s (summOne s c k x) ∧
    (x.op = .vcnt → (summValue s c k x).1 = BitVec.ofNat 32 hits.length) ∧
    (x.op = .vany → ((summValue s c k x).1 = 1#32 ↔ ∃ y ∈ summLanes s c k x, y.2.1 = true ∧ nonZero (vdesc s c x.da) y.2.2 = true)) ∧
    (x.op = .vfirst → ∀ y ∈ hits.head?, (summValue s c k x).1 = BitVec.ofNat 32 y.1 ∧ (summValue s c k x).2.1 = y.1) ∧
    (x.op = .vfirst → hits = [] → (summValue s c k x).1 = 0xFFFFFFFF#32)

/-- The matrix commands (R159 to R164, R173, R174): in its completion cycle the oldest begun command takes effect with the operands
it took, from the first of its writes not yet made (step by step, row by row, block by block); a conveyor block that is not there, or carries another number, is CONVEYOR_MISS. -/
def Obligations.MatrixCommands : Prop :=
  ∀ (s : State) (c : CoreId) (k : Cmd), CommandDue s c .matrix k →
    let done (n : Nat) (f : State → Nat → State) : Out := .next (markDone (((List.range n).drop k.outN).foldl f s) c k)
    (∀ f src half sc idx reach seq, mxOf k.slot = .wload f src half sc idx reach seq →
      exec (.wload c) s = done 1 fun r _ => wloadEffect r c k f src half sc idx reach seq) ∧
    (∀ seq, mxOf k.slot = .wloadConveyor seq → exec (.wloadConveyor c) s = done 1 fun r _ =>
      match (getCore r c).conv with
      | some b => if b.seq = seq then setShadow r c (natLe 32 b.data.toNat) b.kind b.scale.toNat b.seq
        else coreFault r c .conveyorMiss k.tag 1 0
      | none => coreFault r c .conveyorMiss k.tag 1 0) ∧
    (∀ src sc, mxOf k.slot = .wloadScales src sc → exec (.wloadScales c) s = done 2 fun r i =>
      setRegBytes r c (oCoreMxAscale + 32 * i) (cmdRow r c k (k.tbase + if i = 0 then src else sc) (cmdCycle k i))) ∧
    (∀ src reach seq, mxOf k.slot = .wloadSerial src reach seq →
      exec (.wloadSerial c) s = done 1 fun r _ => wloadBlock r c (cmdRow r c k (k.tbase + src)) 0xF 0 reach seq) ∧
    (∀ f n ab src tr sw sb, mxOf k.slot = .mstream f n ab src tr sw sb →
      exec (.mstream c) s = done n fun r i => streamStep r c k f ab src tr sb i) ∧
    (∀ b n ex w, mxOf k.slot = .mclear b n ex w →
      exec (.mclear c) s = done 1 fun r _ => (List.range n).foldl (fun r i => clearBlock r c (b + i) ex w) r) ∧
    (∀ b n ex dst, mxOf k.slot = .mdrain b n ex dst → exec (.mdrain c) s = done ((if ex then 6 else 2) * n) fun r i =>
      withTaken r c k (fun _ => true) fun r => mdrainRow r c k b ex dst i) ∧
    (∀ wa wb sa sb n ab src sw, mxOf k.slot = .mserial wa wb sa sb n ab src sw →
      exec (.mserial c) s = done n fun r i => mserialBlock r c k wa wb sa sb ab src i)

/-- What a step of products adds to an exact block (R117 to R120): every element grows, modulo 2^96, by the sum of its finite
products, each rounded down at the block's window base less 32; the other blocks and all other stores are as before. -/
def Obligations.ExactAccumulation : Prop :=
  ∀ (s : State) (c : CoreId) (b cnt : Nat) (ps : Nat → Nat → List FVal), b < 64 → accExact s c b = true →
    (∀ i n, ∀ v ∈ ps i n, ∃ sg m e, v = .fin sg m e) →
    let t := accStep s c b cnt ps
    SameMemOutside s t (accAddr c b 0) 256 ∧ SameRegsBut s t (· = accReg c b) ∧ accExact t c b = true ∧ accWb t c b = accWb s c b ∧
    getF t (accReg c b) 40 16 = min (getF s (accReg c b) 40 16 + cnt) (2 ^ 25 - 1) ∧
    ∀ i n, i < 4 → n < 4 → accA t c b (4 * i + n) = accA s c b (4 * i + n) + BitVec.ofInt 96
      ((ps i n).map fun v => match v with | .fin sg m e => floorAt sg m e (accWb s c b - 32) | _ => 0).sum

/-- MCLEAR and MDRAIN of one block (R162, R163): mode and window base are set and every element is zero; the rows drained are the
block's elements, lowest first, and the block keeps its contents. -/
def Obligations.ClearAndDrain : Prop :=
  ∀ (s : State) (c : CoreId) (k : Cmd) (b w dst : Nat) (ex : Bool), b < 64 →
    let t := clearBlock s c b ex w
    let n := if ex then 6 else 2
    let u := (List.range n).foldl (fun r i => mdrainRow r c k b ex dst i) s
    getReg t (accReg c b) = BitVec.ofNat 64 (ex.toNat * 2 ^ 12 + w % 256) ∧
    (∀ i, i < 256 → rdByte t (accAddr c b 0 + i) = 0#8) ∧ SameMemOutside s t (accAddr c b 0) 256 ∧
    SameRegsBut s t (· = accReg c b) ∧
    (NothingLost s c k → k.tbase + dst + n ≤ 1536 →
      (∀ i, i < n → rowNow u c (k.tbase + dst + i) = ((drainBytes s c b ex).drop (32 * i)).take 32) ∧
      SameMemOutside s u (tileAddr c (k.tbase + dst) 0) (32 * n))

/-- The weight shadow (R155, R159, R172): a WLOAD puts the block's bytes, kind, scale and number into the shadow, the latch keeps
its contents; with reach the block also goes onto the conveyor in that cycle. -/
def Obligations.ShadowLoad : Prop :=
  ∀ (s : State) (c : CoreId) (data : List Byte) (kind scale reach seq : Nat), data.length = 32 → kind < 16 → scale < 256 → seq < 16 →
    let t := wloadBlock s c data kind scale reach seq
    regBytes t c oCoreWlShd = data ∧ getF t (coreReg c oCoreMxStatus) 27 24 = kind ∧ getF t (coreReg c oCoreMxStatus) 35 32 = seq ∧
    getF t (coreReg c oCoreMxScales) 7 0 = scale ∧ regBytes t c oCoreWlCur = regBytes s c oCoreWlCur ∧
    getF t (coreReg c oCoreMxStatus) 31 28 = getF s (coreReg c oCoreMxStatus) 31 28 ∧
    getF t (coreReg c oCoreMxScales) 15 8 = getF s (coreReg c oCoreMxScales) 15 8 ∧ SameMem s t ∧
    (reach = 0 → ∀ d, getCore t d = getCore s d) ∧
    (reach ≠ 0 → (getCore t c).convOut = some (s.cycle, ⟨BitVec.ofNat 256 (leNat data), BitVec.ofNat 8 scale, kind, seq, reach⟩) ∧
      (getCore t c).conv = none ∧ SameCoresBut s t c)

/-- TCOPY and RPOP (R44, R72, R80, R89): the rows that the command has read are written in order, or the byte columns of a whole
tile as rows, and no byte outside them changes; the oldest filled ring slots are freed. -/
def Obligations.CopyAndPop : Prop :=
  ∀ (s : State) (c : CoreId) (k : Cmd), CommandDue s c .move k →
    (∀ src dst m tr, mvOf k.slot = .tcopy src dst m tr → NothingLost s c k →
      ∃ t, exec (.tcopy c) s = .next t ∧ SameMemOutside s t (tileAddr c (k.tbase + dst) 0) (32 * (m + 1)) ∧ SameCoresBut s t c ∧
        ∀ i, k.outN ≤ i → i ≤ m → ∀ b cy,
          gotOf k (if tr then .col (32 * ((k.tbase + src) / 32)) i else .row (k.tbase + src + i)) = some (b, cy) → b.length = 32 →
          rowNow t c (k.tbase + dst + i) = b) ∧
    (∀ n, mvOf k.slot = .rpop n → (getCore s c).tasks.length = 4 → k.task < 4 →
      ∃ t, exec (.rpop c) s = .next t ∧ SameMem s t ∧ SameRegs s t ∧ SameCoresBut s t c ∧
        let l := (taskAt (getCore s c) k.task).fills
        (taskAt (getCore t c) k.task).fills = l.drop (min (n + 1) (l.takeWhile (·.counted)).length))

/-- MPUT and MSCATTER (R44, R80, R317, R319): the rows of an MPUT leave as writes of granules or of a tile, in order, and the command
waits for their acknowledgments; an MSCATTER checks its indices, advances its descriptor, and granule i is to leave 2i + 2 cycles later;
a failed index sends nothing and is BOUND_VIOLATION. A granule whose cycle has come leaves with the rows read for it. -/
def Obligations.MemoryWrites : Prop :=
  (∀ (s : State) (c : CoreId) (k : Cmd), CommandDue s c .move k →
    let f := fieldOfCore c
    (∀ src adr g ofs, mvOf k.slot = .mput src adr g ofs → ∃ t, exec (.mput c) s = .next t ∧ SameMem s t ∧ SameCoresBut s t c ∧
      SentTxns s t f (granuleRun true k.addr (g + 1) fun i => granuleRows s c k src i) ∧
      (getCore t c).outst = (getCore s c).outst + txnCount (g + 1) ∧
      ∃ k' ∈ (getCore t c).cmds, k'.slot = k.slot ∧ k'.done = true ∧ k'.acks = txnCount (g + 1)) ∧
    (∀ src adr idx m, mvOf k.slot = .mscatter src adr idx m →
      let ix := (List.range (m + 1)).map (indexOf ((List.range (idxRows (m + 1))).map fun i => cmdRow s c k (k.tbase + idx + i)))
      let r := coreReg c (oCoreAdr + 8 * adr)
      (∀ as, indexAddrs s c adr ix = .ok as → adr < 16 → ∃ t, exec (.mscatter c) s = .next t ∧ SameMem s t ∧ SameCoresBut s t c ∧
        SentTxns s t f [] ∧ (getCore t c).outst = (getCore s c).outst ∧
        (getF t r 47 0 : Int) = ((getF s r 47 0 : Int) + 64 * signedOf 16 (getF s r 63 48)) % 2 ^ 48 ∧
        ∃ k' ∈ (getCore t c).cmds, k'.slot = k.slot ∧ k'.done = true ∧ k'.acks = m + 1 ∧ k'.outN = 0 ∧
          k'.sends = (as.zip (List.range (m + 1))).map fun (a, i) => (k.due + 2 * i + 2, a)) ∧
      (∀ e, indexAddrs s c adr ix = .error e → ∃ t, exec (.mscatter c) s = .next t ∧ SameMem s t ∧ SameCoresBut s t c ∧
        SentTxns s t f [] ∧ (getCore t c).mode = .faulted))) ∧
  ∀ (s : State) (c : CoreId) (k : Cmd) (src adr idx m at_ a : Nat) (rest : List (Nat × Nat)), (getCore s c).cmds = [k] →
    mvOf k.slot = .mscatter src adr idx m → k.sends = (at_, a) :: rest → at_ ≤ s.cycle → (∀ p ∈ rest, s.cycle < p.1) →
    let t := scatterDue s c
    SentTxns s t (fieldOfCore c) [(true, a, 64, granuleRows s c k src k.outN)] ∧
    (getCore t c).cmds = [{ k with sends := rest, outN := k.outN + 1 }] ∧ (getCore t c).outst = (getCore s c).outst + 1 ∧
    SameMem s t ∧ SameCoresBut s t c

/-- RFILL (R44, R45, R70, R316): with a free slot, an open gate and room in the memory queue, the next ring slot is taken, the
descriptor advances once and the granules are asked for; an address outside the core's own field is BOUND_VIOLATION. RGATHER (R317,
R318): it asks for its index rows; once they are read, every index is checked before anything is sent. -/
def Obligations.RingFills : Prop :=
  (∀ (s : State) (c : CoreId) (w : W256) (gate : Gate) (adr gm ofs : Nat), FetchSees s c w → FourTasks s c →
    slotX w = .rfill gate adr gm ofs → ringEn s c (getCore s c).task = true → adr < 16 →
    fetchBlocked s c gate (txnCount (gm + 1)) = none → pendingHit (getCore s c) [nextSlotRange s c] = none →
    let a := adrVal s c adr + 64 * ofs
    let r := coreReg c (oCoreAdr + 8 * adr)
    (inOwnField c a (gm + 1) = true → ∃ t, exec (.rfill c) s = .next t ∧ SameMem s t ∧ SameCoresBut s t c ∧
      SentTxns s t (fieldOfCore c) (granuleRun false a (gm + 1) fun _ => []) ∧
      (getF t r 47 0 : Int) = ((getF s r 47 0 : Int) + 64 * signedOf 16 (getF s r 63 48)) % 2 ^ 48 ∧
      (getCore t c).outst = (getCore s c).outst + txnCount (gm + 1) ∧
      ∃ f, NextFill s c (wTag w) (2 * (gm + 1)) f ∧ (curTask (getCore t c)).fills = (curTask (getCore s c)).fills ++ [f]) ∧
    (inOwnField c a (gm + 1) = false → ∃ t, exec (.rfill c) s = .next t ∧ CoreFaulted s t c 5 0 (wTag w) ∧
      SentTxns s t (fieldOfCore c) [])) ∧
  (∀ (s : State) (c : CoreId) (w : W256) (gate : Gate) (adr idx cm : Nat), FetchSees s c w → FourTasks s c →
    slotX w = .rgather gate adr idx cm → ringEn s c (getCore s c).task = true → adr < 16 →
    fetchBlocked s c gate (cm + 1) = none → tileInBound [tileR idx (idxRows (cm + 1))] (taskTsize s c (getCore s c).task) = true →
    let tb := taskTbase s c (getCore s c).task
    let x := getCore s c
    pendingHit x [absR tb (tileR idx (idxRows (cm + 1))), nextSlotRange s c] = none →
    (x.idxReq = false → ∃ t, exec (.rgather c) s = .next t ∧ SameMem s t ∧ SameCoresBut s t c ∧ SentTxns s t (fieldOfCore c) [] ∧
      (getCore t c).idxReq = true ∧
      (getCore t c).bgr = x.bgr ++ (List.range (idxRows (cm + 1))).map fun i => ⟨.index x.task i, tb + idx + i⟩) ∧
    (x.idxReq = true → idxRows (cm + 1) ≤ x.idxGot.length →
      let got := (List.range (idxRows (cm + 1))).map fun i => ((x.idxGot.find? fun g => g.1 = i).map (·.2)).getD []
      (∀ as, indexAddrs s c adr ((List.range (cm + 1)).map (indexOf got)) = .ok as → ∃ t, exec (.rgather c) s = .next t ∧
        SameMem s t ∧ SameCoresBut s t c ∧ SentTxns s t (fieldOfCore c) (as.map fun a => (false, a, 64, [])) ∧
        ∃ f, NextFill s c (wTag w) (2 * (cm + 1)) f ∧ (curTask (getCore t c)).fills = (curTask (getCore s c)).fills ++ [f]) ∧
      (∀ e, indexAddrs s c adr ((List.range (cm + 1)).map (indexOf got)) = .error e → ∃ t, exec (.rgather c) s = .next t ∧
        CoreFaulted s t c 5 0 (wTag w) ∧ SentTxns s t (fieldOfCore c) [])))

/-- RPULL and FILL_LANDED (R44, R70, R105): a tile in the running task of the neighbour is asked for, row by row, into the next
slot; from a fenced neighbour zeros come instead (the model's, log 122); fills whose rows have all landed are counted, and the fill counter grows by their number. -/
def Obligations.RingPullAndLanding : Prop :=
  (∀ (s : State) (c : CoreId) (w : W256) (gate : Gate) (dir src nb : Nat), FetchSees s c w → FourTasks s c →
    slotX w = .rpull gate dir src → ringEn s c (getCore s c).task = true → fetchBlocked s c gate 0 = none →
    pendingHit (getCore s c) [nextSlotRange s c] = none → neighbour c dir = some nb →
    let mine := slotRow s c (getCore s c).task (nextRingSlot s c (getCore s c).task)
    (coreFenced s nb = false → 32 * src + 31 < taskTsize s nb (getCore s nb).task →
      ∃ t, exec (.rpull c) s = .next t ∧ SameMem s t ∧ SameRegs s t ∧ (∀ d, d ≠ c.val → d ≠ nb → getCore t d = getCore s d) ∧
        (∃ f, NextFill s c (wTag w) 32 f ∧ (curTask (getCore t c)).fills = (curTask (getCore s c)).fills ++ [f]) ∧
        getCore t nb = { getCore s nb with bgr := (getCore s nb).bgr ++ (List.range 32).map fun i =>
          ⟨.rpull ((dir + 2) % 4) c s.cycle (mine + i), taskTbase s nb (getCore s nb).task + 32 * src + i⟩ }) ∧
    (coreFenced s nb = false → taskTsize s nb (getCore s nb).task ≤ 32 * src + 31 →
      ∃ t, exec (.rpull c) s = .next t ∧ CoreFaulted s t c 5 0 (wTag w)) ∧
    (coreFenced s nb = true → ∃ t, exec (.rpull c) s = .next t ∧ SameMem s t ∧ SameCoresBut s t c ∧
      (∃ f, NextFill s c (wTag w) 32 f ∧ (curTask (getCore t c)).fills = (curTask (getCore s c)).fills ++ [f]) ∧
      (getCore t c).bgw = (getCore s c).bgw ++ (List.range 32).map fun i =>
        ⟨.fill s.cycle, mine + i, wholeRow (List.replicate 32 0#8)⟩)) ∧
  ∀ (s : State) (c : CoreId) (n : Fin 4), engRuns s c = true → (getCore s c).tasks.length = 4 →
    let l := (taskAt (getCore s c) n).fills
    ∃ t, exec (.fillLanded c n) s = .next t ∧ SameMem s t ∧ SameCoresBut s t c ∧
      (getCore t c).ctrAdd = (getCore s c).ctrAdd ++
        (if l.any fillDue then [(ringCtr s c n, ((l.filter fillDue).length : Int))] else []) ∧
      (∀ f ∈ (taskAt (getCore t c) n).fills, fillDue f = false ∧ (f.cancelled && f.rowsLeft == 0) = false)

/-- FETCH_ADVANCE (R57, R71): over a word without a fetch-side command the engine moves by the loop field, on its own copy of the loop
counters; it stops at END and at the ends of the task's range, and holds at an illegal word. -/
def Obligations.FetchAdvances : Prop :=
  ∀ (s : State) (c : CoreId),
    let y := curTask (getCore s c)
    (∀ w, FetchSees s c w → FourTasks s c → (getCore s c).idxReq = false → isFetchSide (slotX w) = false → wDp w = false → wSb w = false →
      ∃ t, exec (.fetchAdvance c) s = .next t ∧ SameMem s t ∧ SameRegs s t ∧ SameCoresBut s t c ∧
        (getCore t c).fetched = some s.cycle ∧ (curTask (getCore t c)).pc = y.pc ∧ (curTask (getCore t c)).loops = y.loops ∧
        (wLoopOp w = 5 → (curTask (getCore t c)).fpc = y.fpc ∧ (getCore t c).fetchCause = 5) ∧
        (wLoopOp w = 4 → (curTask (getCore t c)).fpc = wLoopArg w % 256) ∧
        (wLoopOp w = 3 → y.floops.getD (wLoopLvl w) 0 = 0#32 → (curTask (getCore t c)).fpc = y.fpc + 1) ∧
        (wLoopOp w = 3 → y.floops.getD (wLoopLvl w) 0 ≠ 0#32 →
          (wLoopArg w % 256 ≤ y.fpc → (curTask (getCore t c)).fpc = y.fpc - wLoopArg w % 256) ∧
          (y.fpc < wLoopArg w % 256 → (curTask (getCore t c)).fpc = y.fpc ∧ (getCore t c).fetchCause = 5)) ∧
        (wLoopOp w < 3 → (curTask (getCore t c)).fpc = y.fpc + 1)) ∧
    (fetchReady s c = true → fetchWord s c = none → ∃ t, exec (.fetchAdvance c) s = .next t ∧ t = { s with cores := t.cores } ∧
      SameCoresBut s t c ∧ getCore t c = { getCore s c with fetchCause := 5, fetched := some s.cycle }) ∧
    (∀ w, fetchReady s c = true → fetchWord s c = some w → wordLegal s c w = false →
      ∃ t, exec (.fetchAdvance c) s = .next t ∧ t = { s with cores := t.cores } ∧
      SameCoresBut s t c ∧ getCore t c = { getCore s c with fetchCause := 8, fetched := some s.cycle })

/-- COMBINER_ACCEPT (R93, R98, R99): a waiting write of another master merges into the open entry of its row, or opens an entry
while fewer than eight are open or kept, or one is kept for it; otherwise the oldest entry is forced ready and the write goes on waiting;
a write of a class before it in the order waits first. COMBINER_FLUSH (R98, R100): the oldest ready entry of a side is written to the
array, its valid bytes only, and is freed, kept for the write that forced it. -/
def Obligations.Combiner : Prop :=
  (∀ (s : State) (c : CoreId) (w : BgWrite), bgRuns s c = true → (getCore s c).bgw = [w] → w.src = .master →
    ((arrivalWaits s c = true ∨ combinedWaits s c = true) → exec (.combinerAccept c) s = .next s) ∧
    (arrivalWaits s c = false → combinedWaits s c = false → (getCore s c).combCy ≠ some s.cycle →
      let x := getCore s c
      let y := dropOwner x (4, w.row)
      ∃ t, exec (.combinerAccept c) s = .next t ∧ SameMem s t ∧ SameCoresBut s t c ∧
        SameRegsBut s t (· = coreReg c oCoreTsCombine) ∧
        ((∃ e ∈ x.comb, e.row = w.row) → (getCore t c).bgw = [] ∧ (getCore t c).combKept = y.combKept ∧
          (getCore t c).comb = y.comb.map fun e => if e.row = w.row then { e with bytes := mergeBytes e.bytes w.bytes, last := s.cycle } else e) ∧
        ((∀ e ∈ x.comb, e.row ≠ w.row) → (x.comb.length + x.combKept.length < 8 ∨ (4, w.row) ∈ x.combKept) →
          (getCore t c).bgw = [] ∧ (getCore t c).combKept = y.combKept ∧
          (getCore t c).comb = y.comb ++ [{ row := w.row, bytes := w.bytes, last := s.cycle, forced := false }]) ∧
        ((∀ e ∈ x.comb, e.row ≠ w.row) → 8 ≤ x.comb.length + x.combKept.length → (4, w.row) ∉ x.combKept →
          (getCore t c).bgw = [w] ∧ (getCore t c).comb = forceOldest (4, w.row) x.comb ∧
          ∀ e l, x.comb = e :: l → e.forced = false → (∀ d ∈ x.comb, d.owner ≠ some (4, w.row)) →
            (getCore t c).comb = { e with forced := true, owner := some (4, w.row) } :: l))) ∧
  (∀ (s : State) (c : CoreId) (odd : Bool) (e : CombEntry), bgRuns s c = true →
    ((getCore s c).comb.find? fun y => entryReady s.cycle y && rowSide y.row == odd) = some e →
    ((getCore s c).comb.find? fun y => entryReady s.cycle y && rowSide y.row == !odd) = none →
    flushFree s c odd = true → e.bytes.length = 32 →
    ∃ t, exec (.combinerFlush c) s = .next t ∧ (getCore t c).comb = (getCore s c).comb.erase e ∧
      (getCore t c).combKept = (getCore s c).combKept ++ e.owner.toList ∧ SameCoresBut s t c ∧
      rdRowRaw t c e.row = overlay e.bytes (rdRowRaw s c e.row) ∧ SameMemOutside s t (tileAddr c e.row 0) 32 ∧
      SameRegsBut s t (· = coreReg c oCoreTsCombine))

/-- BACKGROUND_READ (R94, R101, R228, R354): the first waiting read of a side is served where the side's read port is free and no
combining channel's read comes before it, and open combiner entries are seen: a master is answered, a steward's register is loaded, an index
row is kept, a pulled row goes to the puller, an egress row to its cell. With the core clock stopped a master's read is served on the service
clock. -/
def Obligations.BackgroundReadServed : Prop :=
  ∀ (s : State) (c : CoreId) (odd : Bool) (r : BgRead), coreFenced s c = false → firstRead s c odd = some r →
    (s.clocksOn = true → bgReadFree s c odd = true → combReadWaits s c odd = false → portStood s c r = true →
    ∃ t, exec (.backgroundRead c odd) s = .next t ∧ SameMem s t ∧
      (∀ b n, r.src = .master b n → t.reply = some ⟨.ok, ((rdRow s c r.row).drop (b % 32)).take n⟩ ∧
        (getCore t c).bgr = (getCore s c).bgr.erase r) ∧
      (∀ i j, r.src = .index i j → (getCore t c).idxGot = (getCore s c).idxGot ++ [(j, rdRow s c r.row)] ∧
        (getCore t c).bgr = (getCore s c).bgr.erase r) ∧
      (∀ d p born dst, r.src = .rpull d p born dst → (getCore t p).bgw = (getCore s p).bgw ++ [⟨.fill born, dst, (rdRow s c r.row).map some⟩] ∧
        (getCore t c).bgr = (getCore s c).bgr.erase r) ∧
      (∀ l i j, r.src = .egress l i j → (getCore t c).bgr = (getCore s c).bgr.erase r ∧ (getLink t l).pre = (getLink s l).pre.map fun k =>
        if k.id = i then { k with rows := k.rows.set j (some (rdRow s c r.row)) } else k) ∧
      (∀ b rd q, r.src = .steward b → (getClu s (cluOf c)).tsld = some (rd, q) →
        (getClu t (cluOf c)).tsld = none ∧ (getCore t c).bgr = (getCore s c).bgr.erase r ∧
        (getClu t (cluOf c)).freeAt = s.cycle + 2 ∧
        (getClu t (cluOf c)).regs = if rd = 0 then (getClu s (cluOf c)).regs
          else (getClu s (cluOf c)).regs.set rd (BitVec.ofNat 32 (leNat (((rdRow s c r.row).drop (b % 32)).take 4))))) ∧
    (s.clocksOn = true → (bgReadFree s c odd = false ∨ combReadWaits s c odd = true ∨ portStood s c r = false) →
      exec (.backgroundRead c odd) s = .next s) ∧
    (∀ b n, s.clocksOn = false → r.src = .master b n → ∃ t, exec (.backgroundRead c odd) s = .next t ∧ SameMem s t ∧
      t.reply = some ⟨.ok, ((rdRow s c r.row).drop (b % 32)).take n⟩ ∧ (getCore t c).bgr = (getCore s c).bgr.erase r)

/-- TILE_STORE_WRITE (R93, R354, R579): an admitted write waits for the combiner while the core clock runs, and is made on the
service clock while it does not, into an open entry of its row or into the array; one that is not admitted changes no byte and no core. -/
def Obligations.TileStoreWrites : Prop :=
  ∀ (s : State) (m : Master) (c : CoreId) (off : Fin 49152) (data : List Byte),
    (Admitted s m true (coreBase c + off) data.length → s.clocksOn = true →
      ∃ t, exec (.tileStoreWrite m c off data) s = .next t ∧ t = { s with cores := t.cores, reply := t.reply } ∧ Answered t .ok ∧
        SameCoresBut s t c ∧ getCore t c = { getCore s c with bgw := (getCore s c).bgw ++
          [⟨.master, off.val / 32, partRow (off.val % 32) data⟩] }) ∧
    (Admitted s m true (coreBase c + off) data.length → s.clocksOn = false → (∀ e ∈ (getCore s c).comb, e.row ≠ off.val / 32) →
      ∃ t, exec (.tileStoreWrite m c off data) s = .next t ∧ t = { s with mem := t.mem, reply := t.reply } ∧ Answered t .ok ∧
        (∀ i, i < data.length → rdByte t (coreBase c + off + i) = data.getD i 0#8) ∧
        SameMemOutside s t (coreBase c + off) data.length) ∧
    (Admitted s m true (coreBase c + off) data.length → s.clocksOn = false → (∃ e ∈ (getCore s c).comb, e.row = off.val / 32) →
      ∃ t, exec (.tileStoreWrite m c off data) s = .next t ∧ t = { s with cores := t.cores, reply := t.reply } ∧ Answered t .ok ∧
        SameCoresBut s t c ∧ getCore t c = { getCore s c with comb := (getCore s c).comb.map fun e =>
          if e.row = off.val / 32 then { e with bytes := mergeBytes e.bytes (partRow (off.val % 32) data) } else e }) ∧
    (reaches s m = true → (screenAccess s m true (coreBase c + off) data.length).1 ≠ .ok →
      ∃ t, exec (.tileStoreWrite m c off data) s = .next t ∧ SameMem s t ∧ (∀ d, getCore t d = getCore s d) ∧
        Answered t (screenAccess s m true (coreBase c + off) data.length).1)

/-- MSEND and the departure of its rows (R81, R281 to R284): rows enter the send buffer two cycles after their reads with the
header of their channel; the head row departs where the slot grants its direction and a credit is held, and takes the credit. -/
def Obligations.SendPort : Prop :=
  ∀ (s : State) (c : CoreId),
    (∀ k src m ch, engRuns s c = true → sendingCmd s c = some k → decodeMove k.slot = some (.msend src m ch) →
      ∃ t, exec (.msend c) s = .next t ∧ t = { s with cores := t.cores } ∧ SameCoresBut s t c ∧
        ∃ r, (getCore t c).sendBuf = (getCore s c).sendBuf ++ [r] ∧ r.beat.data = cmdRow s c k (k.tbase + src + k.rows) ∧
          r.beat.first = (k.rows == 0) ∧ r.beat.last = (k.rows == m) ∧ r.beat.src = c.val ∧ r.beat.tag = k.tag ∧
          r.beat.dst = getF s (chanReg c ch) 48 29 ∧ r.beat.dstChan = getF s (chanReg c ch) 54 49) ∧
    (∀ r d, meshRuns s = true → coreFenced s c = false → (getCore s c).sentAt ≠ some s.cycle → sendHead s c = some r →
      let st := chStat c r.beat.sendChan
      let dir := chDir s c r.beat.sendChan
      r.beat.sendChan < 64 → getB s st 63 = false → slotDest s c 4 s.cycle = dir + 1 → 0 < getF s st 39 34 → neighbour c dir = some d →
      ∃ t, exec (.sendRowDeparture c) s = .next t ∧ SameMem s t ∧ (getCore t c).sendBuf = (getCore s c).sendBuf.tail ∧
        getF t st 39 34 = getF s st 39 34 - 1 ∧ (∀ e, e ≠ c.val → e ≠ d → getCore t e = getCore s e) ∧
        (getCore t d).inb = (getCore s d).inb ++
          [⟨(dir + 2) % 4, s.cycle + hopLat c d, { r.beat with hops := r.beat.hops + hopLat c d }⟩])

/-- ROUTER_BEAT and CREDIT_RETURN (R277 to R279, R284, R287): the slot entry of its cycle sends a beat on to a neighbour or into
the core's arrival queue; one that finds its crossing FIFO's pointers too far apart stays where it is (R286, R350); a credit that has
come back is usable again. -/
def Obligations.RoutersAndCredits : Prop :=
  ∀ (s : State) (c : CoreId), meshRuns s = true →
    (∀ (dir : Fin 4) (upset : Bool) (i : InBeat), inputBeat s c dir = some i → (readCheck s c dir).1 = true →
      coreFenced s c = false →
      let b := { i.beat with ok := i.beat.ok && !upset }
      (∀ n d, n < 4 → slotDest s c dir i.cy = n + 1 → neighbour c n = some d →
        ∃ t, exec (.routerBeat c dir upset) s = .next t ∧ SameMem s t ∧ (getCore t c).inb = (getCore s c).inb.erase i ∧
          (∀ e, e ≠ c.val → e ≠ d → getCore t e = getCore s e) ∧
          (getCore t d).inb = (getCore s d).inb ++ [⟨(n + 2) % 4, i.cy + hopLat c d, { b with hops := b.hops + hopLat c d }⟩]) ∧
      (slotDest s c dir i.cy = 5 → ((getCore s c).aq.getD dir []).length < 32 →
        ∃ t, exec (.routerBeat c dir upset) s = .next t ∧ t = { s with cores := t.cores } ∧ SameCoresBut s t c ∧
          getCore t c = { getCore s c with inb := (getCore s c).inb.erase i,
                                           aq := (getCore s c).aq.set dir ((getCore s c).aq.getD dir [] ++ [⟨b, i.cy⟩]) })) ∧
    (∀ (dir : Fin 4) (upset : Bool) (i : InBeat), inputBeat s c dir = some i → (readCheck s c dir).1 = false →
      exec (.routerBeat c dir upset) s = .next (readCheck s c dir).2) ∧
    (∀ k, ((getCore s c).credIn.find? fun y => decide (y.at_ ≤ s.cycle)) = some k → k.chan < 64 →
      ∃ t, exec (.creditReturn c) s = .next t ∧ SameMem s t ∧ SameCoresBut s t c ∧
        getCore t c = { getCore s c with credIn := (getCore s c).credIn.erase k } ∧
        getF t (chStat c k.chan) 39 34 = min 32 (getF s (chStat c k.chan) 39 34 + 1) ∧
        (k.cut = true → getB t (chStat c k.chan) 63 = true) ∧ SameRegsBut s t (· = chStat c k.chan))

/-- LANDER_TAKE, ROW_LANDING and COMBINE_ROW (R288 to R290, R293 to R296, R300): a message of another generation is discarded with
STALE_MESSAGE; a row of a plain channel and a combined row land through the combiner; lane 0 chooses first. -/
def Obligations.Landing : Prop :=
  ∀ (s : State) (c : CoreId), meshRuns s = true → coreFenced s c = false →
    (∀ (lane : Fin 2) (d : Nat) (b : MBeat), (lane.val = 1 → ¬ (laneIdle s c 0 = true ∧ (takeDir s c 0).isSome = true)) →
      (getCore s c).lanes.length = 2 → (getCore s c).lanes.getD lane none = none →
      (getCore s c).laneFree.getD lane 0 ≤ s.cycle → takeDir s c lane = some d → queueHead s c d = some b →
      b.ok = true → b.dst = c → (chanRole s c b.dstChan = 2 ∨ chanRole s c b.dstChan = 3) →
      ∃ t l, exec (.landerTake c lane) s = .next t ∧ SameMem s t ∧ SameCoresBut s t c ∧
        (getCore t c).lanes.getD lane none = some l ∧ l.dir = d ∧ l.chan = b.dstChan ∧ l.rows = 0 ∧
        (l.drop = true ↔ b.gen ≠ getF s (coreReg c oCoreCtrStatus) 19 16) ∧
        (b.dstChan < 64 → l.drop = true → getB t (chStat c b.dstChan) 62 = true)) ∧
    (∀ (lane : Fin 2) (l : Lane) (b : MBeat), (getCore s c).lanes.getD lane none = some l → l.next ≤ s.cycle →
      queueHead s c l.dir = some b → l.drop = false → b.ok = true → lengthOk s c l b = true → l.plain = true →
      chanRole s c l.chan = 2 → l.chan < 64 → b.data.length = 32 → (getCore s c).combCy ≠ some s.cycle →
      let row := chBase s c l.chan + (getF s (chStat c l.chan) 29 21 + l.rows) % chSize s c l.chan
      (getCore s c).bgw = [] → (getCore s c).combs = [] → (∀ e ∈ (getCore s c).comb, e.row = row → e.bytes.length = 32) →
      ((getCore s c).comb.length + (getCore s c).combKept.length < 8 ∨ (1, row) ∈ (getCore s c).combKept ∨
        ∃ e ∈ (getCore s c).comb, e.row = row) →
      ∃ t, exec (.rowLanding c lane) s = .next t ∧ SameMem s t ∧ rowNow t c row = b.data ∧
        (b.last = true → getF t (chMsg c l.chan) 63 32 = (getF s (chMsg c l.chan) 63 32 + 1) % 2 ^ 32)) ∧
    (∀ r, ((getCore s c).combs.find? fun y => decide (y.at_ ≤ s.cycle)) = some r → (getCore s c).bgw = [] → arrivalWaits s c = false →
      r.data.length = 32 →
      (getCore s c).combCy ≠ some s.cycle → (∀ e ∈ (getCore s c).comb, e.row = r.row → e.bytes.length = 32) →
      ((getCore s c).comb.length + (getCore s c).combKept.length < 8 ∨ (2, r.row) ∈ (getCore s c).combKept ∨
        ∃ e ∈ (getCore s c).comb, e.row = r.row) →
      ∃ t, exec (.combineRow c) s = .next t ∧ SameMem s t ∧ SameCoresBut s t c ∧ rowNow t c r.row = r.data ∧
        (getCore t c).combs = (getCore s c).combs.erase r)

/-- GARNET_RELEASE, GARNET_RAIL, GAR_FALLBACK, FALLBACK_SWITCH and FALLBACK_RELEASE (R28, R260 to R265), on a line that is not the
realign line where they release: every member takes the release and no other core changes; in fallback no group that includes a fence
releases. -/
def Obligations.GarnetLines : Prop :=
  ∀ (s : State) (n : Fin 8),
    let r := modReg (oGarLineCtl + 8 * n.val)
    (s.clocksOn = true → n.val ≠ realignLine s → lineFull s n = true → releaseCycle s n ≤ s.cycle →
      (getGar s n).hush = false →
      ∃ t, exec (.garnetRelease n) s = .next t ∧ SameMem s t ∧ (∀ c ∈ garMembers s n, TookRelease s t n c) ∧
        (∀ c, c ∉ garMembers s n → getCore t c = getCore s c)) ∧
    (∀ (f : FieldId) (spare : Bool), ∃ t, exec (.garnetRail f n spare) s = .next t ∧ SameMem s t ∧ FieldRecord s t f .garnetRail ∧
      getB t (fieldReg f oGarFldStatus) (if spare then 24 else 8 + n.val) = true ∧ getB t r 8 = true ∧ (∀ c, getCore t c = getCore s c) ∧
      SameRegsBut s t (fun a => a = fieldReg f oGarFldStatus ∨ a = r ∨ recordRegs f a)) ∧
    (∀ m v, Admitted s m true r 8 →
      ∃ t, exec (.garFallback m n v) s = .next t ∧ Answered t .ok ∧ t = { s with regs := t.regs, reply := t.reply } ∧
        getB t r 8 = v.getLsbD 8 ∧ SameRegsBut s t (· = r)) ∧
    (getB s r 8 = true → getB s r 0 = false →
      ∃ t, exec (.fallbackSwitch n) s = .next t ∧ SameMem s t ∧ getB t r 0 = true ∧
        ∀ g, g < 16 → getF s (groupReg n g) 20 0 ≠ 0 → getF t (groupReg n g) 52 32 = (getF s (groupReg n g) 52 32 +
          ((garMembers s n).filter fun c => getB s (garReg c n) 10 && getF s (garReg c n) 9 6 == g).length) % 2 ^ 21) ∧
    (getB s r 8 = false → getB s r 0 = true → (∀ g, g < 16 → getF s (groupReg n g) 52 32 = 0) →
      ∃ t, exec (.fallbackSwitch n) s = .next t ∧ t = { s with regs := t.regs } ∧ getB t r 0 = false ∧ SameRegsBut s t (· = r)) ∧
    (∀ g : Fin 16, s.clocksOn = true → n.val ≠ realignLine s → getB s r 0 = true → getF s (groupReg n g) 20 0 ≠ 0 →
      getF s (groupReg n g) 52 32 = getF s (groupReg n g) 20 0 →
      ((∀ c ∈ garMembers s n, getF s (garReg c n) 9 6 = g → coreFenced s c = false) →
        ∃ t, exec (.fallbackRelease n g) s = .next t ∧ SameMem s t ∧ getF t (groupReg n g) 52 32 = 0 ∧
          (∀ c ∈ garMembers s n, getF s (garReg c n) 9 6 = g → TookRelease s t n c) ∧
          (∀ c, getF s (garReg c n) 9 6 ≠ g → getCore t c = getCore s c)) ∧
      ((∃ c ∈ garMembers s n, getF s (garReg c n) 9 6 = g ∧ coreFenced s c = true) → exec (.fallbackRelease n g) s = .next s))

/-- REALIGN_ARRIVAL, GARNET_RELEASE of the realign line, REALIGN and REALIGN_HORIZON (R251 to R255, R346, R439, R498). -/
def Obligations.RealignBoundary : Prop :=
  ∀ (s : State),
    (∀ c : CoreId, s.clocksOn = true → coreFenced s c = false →
      ((getCore s c).mode = .run ∨ (getCore s c).mode = .drain ∨ (getCore s c).mode = .held) → (getCore s c).sbHold = true →
      (getCore s c).sbArrived = false → (getCore s c).cmds = [] → (getCore s c).summ = [] → (getCore s c).lateW = [] → (getCore s c).considered ≠ some s.cycle →
      (∀ u ∈ (getCore s c).tasks, ∀ f ∈ u.fills, f.deferred ≠ 0 ∨ f.rowsLeft = 0) → MayArrive s c (realignLine s) →
      ∃ t, exec (.realignArrival c) s = .next t ∧ SameMem s t ∧ SameCoresBut s t c ∧
        getCore t c = { getCore s c with sbArrived := true, realArr := some s.cycle } ∧
        getB t (garReg c (realignLine s)) 10 = true ∧ (getGar t (realignLine s)).last = s.cycle) ∧
    (∀ n : Fin 8, s.clocksOn = true → n.val = realignLine s → lineFull s n = true → releaseCycle s n ≤ s.cycle →
      (getGar s n).hush = false → s.realDue = none →
      ∃ t, exec (.garnetRelease n) s = .next t ∧ SameMem s t ∧ (∀ c, getCore t c = getCore s c) ∧ t.realDue = some s.cycle ∧
        (getB s (modReg oModCkptCtl) 0 = true → ckptBoundary s = true →
          getB t (modReg oModCkptStatus) 63 = true ∧ getB t (modReg oModCkptCtl) 0 = false ∧
          getReg t (modReg oModCkptStep) = coreStep s 0)) ∧
    (realignFree s = true →
      ∃ t, exec .realign s = .next t ∧ t.realDue = none ∧ (getF s (modReg oModTwinCtl) 3 2 = 0 → SameMem s t) ∧
        (∀ c ∈ garMembers s (realignLine s),
          getReg t (coreReg c oCoreStep) = getReg s (coreReg c oCoreStep) + 1#64 ∧
          getF t (coreReg c oCoreCtrStatus) 19 16 = (getF s (coreReg c oCoreCtrStatus) 19 16 + 1) % 16 ∧
          getB t (garReg c (realignLine s)) 10 = false ∧
          getF t (garReg c (realignLine s)) 31 16 = (getF s (garReg c (realignLine s)) 31 16 + 1) % 65536 ∧
          (getCore t c).sbHold = false ∧ (getCore t c).sbArrived = false ∧ (getCore t c).issIdx = 0 ∧ (getCore t c).real = true) ∧
        (∀ f, f < 64 → getF t (fieldReg f oFldClkStatus) 7 0 = 0 ∧
          getReg t (fieldReg f oFldEnergyStep) = getReg s (fieldReg f oFldEnergy))) ∧
    (∀ (c : CoreId) (d : Nat), s.clocksOn = true → (getCore s c).realArr = some d →
      ((getCore s c).mode = .run ∨ (getCore s c).mode = .drain ∨ (getCore s c).mode = .held) → (getCore s c).sbHold = true →
      getB s (modReg oModCkptStatus) 63 = false → d + getF s (modReg oGarRealign) 63 32 < s.cycle →
      ∃ t, exec (.realignHorizon c) s = .next t ∧ CoreFaulted s t c 0 0 (getCore s c).lastTag)

/-- DEADLOCK, FLD_FENCE_CTL, CLU_FENCE_CTL and FENCE_APPLIED (R25, R28 to R30, R246, R267, R331): while the clocks are stopped a fence that
is written takes effect at once; a field fenced in service for a core or a channel gets a defect in the repair record. -/
def Obligations.DeadlockAndFences : Prop :=
  ∀ (s : State),
    (∀ k : CluId, s.clocksOn = true → (getClu s k).closedFor = 16 → deadNow s k = true →
      ∃ t, exec (.deadlock k) s = .next t ∧ SameMem s t ∧ (getClu t k).closedFor = 17 ∧
        getF t (cluReg k oCluDeadlock) 47 32 = (getF s (cluReg k oCluDeadlock) 47 32 + 1) % 65536 ∧
        (∀ i, i < 64 → waitClosed s (coreOfClu k i) = true → (getCore t (coreOfClu k i)).mode = .faulted) ∧
        (getB s (cluReg k oCluDeadlock) 63 = false → ∀ i, i < 64 →
          getB t (cluReg k oCluDlWaiting) i = waitClosed s (coreOfClu k i) ∧
          getB t (cluReg k oCluDlHeld) i = ((getCore s (coreOfClu k i)).mode == .held))) ∧
    (∀ m (f : FieldId) (v : W64), Admitted s m true (fieldReg f oFldFenceCtl) 8 → v.getLsbD 0 = true → fieldFenced s f = false →
      (getField s f).fenceReq = none →
      (s.clk.kind = 0 → ∃ t, exec (.fldFenceCtl m f v) s = .next t ∧ t = { s with fields := t.fields, reply := t.reply } ∧ Answered t .ok ∧
        getField t f = { getField s f with fenceReq := some (bitsOf v.toNat 15 8) } ∧ SameFieldsBut s t f) ∧
      (s.clk.kind ≠ 0 → ∃ t, exec (.fldFenceCtl m f v) s = .next t ∧ Answered t .ok ∧ fieldFenced t f = true ∧
        getF t (fieldReg f oFldFenceStatus) 15 8 = bitsOf v.toNat 15 8)) ∧
    (∀ m (k : CluId) (v : W64), Admitted s m true (cluReg k oCluFenceCtl) 8 → v.getLsbD 0 = true → cluFenced s k = false →
      (getClu s k).fenceReq = none →
      (s.clk.kind = 0 → ∃ t, exec (.cluFenceCtl m k v) s = .next t ∧ t = { s with clus := t.clus, reply := t.reply } ∧ Answered t .ok ∧
        getClu t k = { getClu s k with fenceReq := some (bitsOf v.toNat 15 8) } ∧ SameClusBut s t k) ∧
      (s.clk.kind ≠ 0 → ∃ t, exec (.cluFenceCtl m k v) s = .next t ∧ Answered t .ok ∧ cluFenced t k = true ∧
        getF t (cluReg k oCluFenceStatus) 15 8 = bitsOf v.toNat 15 8)) ∧
    (∀ (f : FieldId) (cause : Nat), (getField s f).fenceReq = some cause →
      ∃ t, exec (.fenceApplied f none) s = .next t ∧ getB t (fieldReg f oFldFenceStatus) 0 = true ∧
        getF t (fieldReg f oFldFenceStatus) 15 8 = cause % 256 ∧ getB t (modReg oModFieldFenced) f = true ∧
        (getField t f).txns = [] ∧ (getField t f).fenceReq = none ∧ bitOf t.smb.alert 5 = true ∧
        t.boot.defects.length = s.boot.defects.length + (if cause % 256 = 2 ∨ cause % 256 = 3 then 1 else 0) ∧
        (∀ c, fieldOfCore c = f → getCore t c = {}) ∧
        ∀ a, rdByte t a = if gated (fun k => k / 256 == f) a then Memory.empty else rdByte s a) ∧
    (∀ (f : FieldId) (j : Fin 256) (cause : Nat), (getClu s (256 * f.val + j.val)).fenceReq = some cause →
      ∃ t, exec (.fenceApplied f (some j)) s = .next t ∧ getB t (cluReg (256 * f.val + j.val) oCluFenceStatus) 0 = true ∧
        getF t (cluReg (256 * f.val + j.val) oCluFenceStatus) 15 8 = cause % 256 ∧
        (∀ c, cluOf c = 256 * f.val + j.val → getCore t c = {}) ∧
        ∀ a, rdByte t a = if gated (fun k => k == 256 * f.val + j.val) a then Memory.empty else rdByte s a)

/-- PORT_FORWARD, GATEWAY_ADMIT, GRANULE_SERVICE, READ_RETURN, WRITE_ACK and STACKED_MEMORY_WRITE (R63, R311 to R315, R322, R324, R326,
R461, R579): a request's way from the cluster port to its answer, and a compiled request that its access table refuses. -/
def Obligations.GatewayRequests : Prop :=
  ∀ (s : State) (f : FieldId),
    (∀ (k : CluId) (u : Txn) (l : List Txn), s.clocksOn = true → cluFenced s k = false → portTxns s k = u :: l →
      (∀ v ∈ (getField s (k.val / 256)).txns, v.stage ≠ .core) →
      (compiledGranted s u = true → ∃ t, exec (.portForward k) s = .next t ∧ SameMem s t ∧ (∀ c, getCore t c = getCore s c) ∧
        getField t (k.val / 256) = moveTxn (getField s (k.val / 256)) { u with stage := .input } ∧ SameFieldsBut s t (k.val / 256) ∧
        getF t (cluReg k oCluMemStats) 31 0 = (getF s (cluReg k oCluMemStats) 31 0 + 1) % 2 ^ 32 ∧
        SameRegsBut s t (· = cluReg k oCluMemStats)) ∧
      (compiledGranted s u = false → ∃ t, exec (.portForward k) s = .next t ∧ SameMem s t ∧ SameCoresBut s t u.core ∧
        (getCore t u.core).mode = .faulted ∧ (getField t (k.val / 256)).txns = (getField s (k.val / 256)).txns.filter (·.id ≠ u.id))) ∧
    (∀ u, fieldFenced s f = false → getB s (fieldReg f oGwStatus) 44 = false → OneAtInput s f u →
      ∃ t, exec (.gatewayAdmit f) s = .next t ∧ SameMem s t ∧ SameFieldsBut s t f ∧
        (getField t f).txns = (moveTxn (getField s f) { u with
          stage := .tracker, admitted := s.ns, data := if u.write then u.data else List.replicate u.len 0 }).txns ∧
        getF t (clsCount f u.cls) 63 32 = (getF s (clsCount f u.cls) 63 32 + 1) % 2 ^ 32 ∧
        getReg t (clsWait f u.cls) = getReg s (clsWait f u.cls) + BitVec.ofNat 64 (s.ns - u.sent - if u.cls = 0 then 60 else 0)) ∧
    (∀ (ch : Fin 32) u i, Serves s f ch u i → u.write = true → u.addr ≤ granuleAt u i → granuleAt u i + 64 ≤ u.addr + u.len →
      u.data.length = u.len → ∀ ecc,
      ∃ t, exec (.granuleService f ch ecc) s = .next t ∧ poisoned t (granuleAt u i) = false ∧
        (∀ b, b < 64 → rdByte t (granuleAt u i + b) = u.data.getD (granuleAt u i - u.addr + b) 0#8) ∧
        SameMemOutside s t (granuleAt u i) 64) ∧
    (∀ (ch : Fin 32) u i, Serves s f ch u i → u.write = false → poisoned s (granuleAt u i) = false →
      ∃ t, exec (.granuleService f ch .clean) s = .next t ∧ SameMem s t ∧ (∀ c, getCore t c = getCore s c) ∧
        (getField t f).txns = (setTxn (getField s f)
          { u with data := spliceBytes u.data (max (granuleAt u i) u.addr - u.addr) (rdBytes s (max (granuleAt u i) u.addr)
                     (min (granuleAt u i + 64) (u.addr + u.len) - max (granuleAt u i) u.addr))
                   left := u.left.filter (· ≠ i), served := s.ns
                   stage := if (u.left.filter (· ≠ i)).isEmpty then .answered else .tracker }).txns) ∧
    (∀ u m, nextAnswer s f false = some u → u.cls ≠ 0 → u.dest = .master m → u.status = .ok →
      ∃ t, exec (.readReturn f) s = .next t ∧ t = { s with fields := t.fields, reply := t.reply } ∧ t.reply = some ⟨.ok, u.data⟩ ∧
        SameFieldsBut s t f ∧ (getField t f).txns = (getField s f).txns.filter (·.id ≠ u.id)) ∧
    (∀ u word skip n, nextAnswer s f false = some u → u.cls = 0 → u.dest = .overlay word skip n → u.status = .ok →
      let d := (u.data.drop skip).take (32 * n)
      ∃ t, exec (.readReturn f) s = .next t ∧ SameCoresBut s t u.core ∧
        getCore t u.core = { getCore s u.core with outst := (getCore s u.core).outst - 1, ovlOut := (getCore s u.core).ovlOut - 1 } ∧
        (∀ i, i < d.length → rdByte t (imemAddr u.core word + i) = d.getD i 0#8) ∧
        SameMemOutside s t (imemAddr u.core word) d.length) ∧
    (∀ u m, nextAnswer s f true = some u → u.cls ≠ 0 → u.dest = .master m → u.status = .ok →
      ∃ t, exec (.writeAck f) s = .next t ∧ t = { s with fields := t.fields, reply := t.reply } ∧ t.reply = some ⟨.ok, []⟩ ∧
        SameFieldsBut s t f ∧ (getField t f).txns = (getField s f).txns.filter (·.id ≠ u.id)) ∧
    (∀ (m : Master) (a : Fin 0x10000000000) (data : List Byte), Admitted s m true a data.length →
      (gwBusy s (a.val / 0x400000000) (classOf m) = false →
        ∃ t u, exec (.stackedMemoryWrite m a data) s = .next t ∧ t = { s with fields := t.fields } ∧
          SameFieldsBut s t (a.val / 0x400000000) ∧
          (getField t (a.val / 0x400000000)).txns = (getField s (a.val / 0x400000000)).txns ++ [u] ∧ u.stage = .input ∧ u.write = true ∧
          u.addr = a.val ∧ u.len = data.length ∧ u.data = data ∧ u.dest = .master m ∧ u.cls = classOf m) ∧
      (gwBusy s (a.val / 0x400000000) (classOf m) = true →
        ∃ t, exec (.stackedMemoryWrite m a data) s = .next t ∧ Answered t .busy ∧ (∀ g, getField t g = getField s g) ∧ SameMem s t))

/-- REFRESH_SLOT, SCRUB_SLOT, GW_PROBE_SIZE and PROBE_DONE (R311, R323, R329, R601). -/
def Obligations.GatewayUpkeep : Prop :=
  ∀ (s : State) (f : FieldId),
    ((Refreshes s f → ∃ t, exec (.refreshSlot f) s = .next t ∧ t = { s with fields := t.fields } ∧ SameFieldsBut s t f ∧
        getField t f = { getField s f with refUsed := quartz s + 1, acts := (getField t f).acts } ∧
        smGet 0 (8 * 26 + 4) (getField t f).acts = smGet 0 (8 * 26 + 4) (getField s f).acts + 1) ∧
      (¬ Refreshes s f → exec (.refreshSlot f) s = .next s)) ∧
    (∀ ch : Fin 32, Scrubs s f ch →
      let pos := smGet 0 ch (getField s f).scrub
      let a := granuleOf f ch pos
      (∀ ecc, (ecc = .clean ∨ poisoned s a = true) →
        ∃ t, exec (.scrubSlot f ch ecc) s = .next t ∧ SameMem s t ∧ (∀ c, getCore t c = getCore s c) ∧
          smGet 0 ch (getField t f).scrub = pos + 1 ∧ (getField t f).poison = (getField s f).poison ∧
          SameRegsBut s t (· = fieldReg f oGwScrub)) ∧
      (poisoned s a = false →
        ∃ t, exec (.scrubSlot f ch .corrected) s = .next t ∧ SameMem s t ∧ ch.val ∈ (getField t f).scrubFix ∧
          smGet 0 ch (getField t f).scrub = pos ∧
          getF t (fieldReg f (oGwChanEcc + 8 * chanOfAddr a)) 63 32 = (getF s (fieldReg f (oGwChanEcc + 8 * chanOfAddr a)) 63 32 + 1) % 2 ^ 32) ∧
      (poisoned s a = false →
        ∃ t, exec (.scrubSlot f ch .uncorrectable) s = .next t ∧ SameMem s t ∧ poisoned t a = true ∧ FieldRecord s t f .eccUncorrected ∧
          smGet 0 ch (getField t f).scrub = pos + 1)) ∧
    (∀ m (v : W64), Admitted s m true (fieldReg f oGwProbeSize) 8 →
      let n := v.toNat % 2 ^ 35
      let base := getF s (fieldReg f oGwProbeBase) 33 0
      ((n ≠ 0 ∧ n % 64 = 0 ∧ base + n ≤ 0x400000000 ∧ (getField s f).probe = none) →
        ∃ t, exec (.gwProbeSize m f v) s = .next t ∧ Answered t .ok ∧ SameMem s t ∧ getF t (fieldReg f oGwProbeSize) 34 0 = n ∧
          getReg t (fieldReg f oGwProbeResult) = 0#64 ∧ getField t f = { getField s f with probe := some (quartz s) } ∧
          SameRegsBut s t (fun r => r = fieldReg f oGwProbeSize ∨ r = fieldReg f oGwProbeResult)) ∧
      (¬ (n ≠ 0 ∧ n % 64 = 0 ∧ base + n ≤ 0x400000000 ∧ (getField s f).probe = none) →
        ∃ t, exec (.gwProbeSize m f v) s = .next t ∧ WriteRefused s t ∧ (getField t f).probe = (getField s f).probe)) ∧
    (∀ q, (getField s f).probe = some q →
      ∃ t, exec (.probeDone f) s = .next t ∧ t = { s with regs := t.regs, fields := t.fields } ∧
        getField t f = { getField s f with probe := none } ∧ SameFieldsBut s t f ∧
        getReg t (fieldReg f oGwProbeResult) = BitVec.ofNat 64 (2 ^ 63 + min 65535
          (overlapping s f (getF s (fieldReg f oGwProbeBase) 33 0) (getF s (fieldReg f oGwProbeSize) 34 0))) ∧
        SameRegsBut s t (· = fieldReg f oGwProbeResult))

/-- STEP_TOKEN_RX, TIMED_RELEASE, PTP_MESSAGE, CKPT_RELEASE, MOD_STEP_SET and the twin records (R410 to R417, R428, R440, R442, R447 to
R452): what each changes; no byte of memory changes. -/
def Obligations.DomainAndTwin : Prop :=
  ∀ (s : State),
    (∀ (l : Fin 40) (h : HeldCell), l.val < 36 → heldHead (getLink s l) 63 = some h → tokenChannel s 63 = true → h.good = true →
      reached s h.rel = true →
      let row := h.rows.headD []
      let d := l.val / 6
      ∃ t, exec (.stepTokenRx l) s = .next t ∧ SameMem s t ∧ (∀ c, getCore t c = getCore s c) ∧
        ((row.getD 8 0#8).toNat = 1 → (getLink t l).held = dropHead 63 (getLink s l).held ∧
          getF t stepStat (4 * d + 3) (4 * d) = (row.getD 10 0#8).toNat % 16) ∧
        ((row.getD 8 0#8).toNat ≠ 1 → leNat (row.take 8) = (coreStep s 0).toNat → getB s stepStat 40 = false →
          (getLink t l).held = dropHead 63 (getLink s l).held ∧
          peerLevel t d = if peerLevel s d = 255 then (row.getD 9 0#8).toNat else max (peerLevel s d) (row.getD 9 0#8).toNat) ∧
        ((row.getD 8 0#8).toNat ≠ 1 → (coreStep s 0).toNat < leNat (row.take 8) →
          t.dom = { s.dom with ahead := s.dom.ahead ++ [(d, leNat (row.take 8), (row.getD 9 0#8).toNat)] } ∧ SameRegs s t)) ∧
    (∀ r, s.dom.reached = some r → getB s (modReg oLnkStepCtl) 1 = true → s.dom.apply = none →
      (getReg s (modReg oLnkStepNext)).toNat ≤ quartz s →
      r + getF s (modReg oLnkStepPeriod) 63 48 ≤ (getReg s (modReg oLnkStepNext)).toNat →
      ∃ t, exec .timedRelease s = .next t ∧ t = { s with regs := t.regs, dom := t.dom } ∧
        t.dom = { s.dom with apply := some (getReg s (modReg oLnkStepNext)).toNat } ∧ SameRegsBut s t (· = modReg oLnkStepNext) ∧
        getReg t (modReg oLnkStepNext) = getReg s (modReg oLnkStepNext) + BitVec.ofNat 64 (getF s (modReg oLnkStepPeriod) 39 0)) ∧
    (∀ offset : BitVec 32, getB s (modReg oQtzCtl) 1 = true →
      ∃ t, exec (.ptpMessage offset) s = .next t ∧ t = { s with regs := t.regs, dom := t.dom } ∧
        getF t (modReg oQtz1588Status) 63 32 = offset.toNat ∧
        getF t (modReg oQtz1588Status) 3 0 = (if offset.toInt.natAbs ≤ 20 then 3 else 2) ∧
        SameRegsBut s t (fun a => a = modReg oQtz1588Status ∨ (qtzSrc s = 1 ∧ a = modReg oQtzStatus)) ∧
        (qtzSrc s = 1 → getF t (modReg oQtzStatus) 63 32 = offset.toNat)) ∧
    (∀ m (v : W64), Admitted s m true (modReg oModCkptCtl) 8 →
      ∃ t, exec (.ckptRelease m v) s = .next t ∧ Answered t .ok ∧ SameMem s t ∧ getF t (modReg oModCkptCtl) 15 8 = v.toNat / 256 % 256 ∧
        getB t (modReg oModCkptCtl) 0 = v.getLsbD 0 ∧
        getB t (modReg oModCkptStatus) 63 = (getB s (modReg oModCkptStatus) 63 && !v.getLsbD 1) ∧
        SameRegsBut s t (fun a => a = modReg oModCkptCtl ∨ a = modReg oModCkptStatus)) ∧
    (∀ m (v : W64), Admitted s m true (modReg oModStepSet) 8 →
      (allReset s = true → ∃ t, exec (.modStepSet m v) s = .next t ∧ Answered t .ok ∧ SameMem s t ∧ (∀ c : CoreId, coreStep t c = v)) ∧
      (allReset s = false → ∃ t, exec (.modStepSet m v) s = .next t ∧ WriteRefused s t ∧ t.stepBase = s.stepBase)) ∧
    (twinOn s = true → s.twin.next < (coreStep s 0).toNat → s.twin.peer = [] →
      ∃ t r, exec .twinRecordSend s = .next t ∧ t = { s with twin := t.twin } ∧ t.twin.own = s.twin.own ++ [r] ∧
        t.twin.next = s.twin.next + 1 ∧ r.step = s.twin.next ∧ ∀ f, f < 64 → r.digests.getD f 0 = heldDigest s f s.twin.next) ∧
    (∀ r a, twinOn s = true → r.capture = none → s.twin.own = [a] → s.twin.peer = [] → a.step = r.step → a.image = r.image → a.seed = r.seed →
      ((∀ f, f < 64 → a.digests.getD f 0 = r.digests.getD f 0) →
        exec (.twinRecordRx r) s = .next { s with twin := { s.twin with own := [], peer := [], last := s.ns } }) ∧
      (∀ g, g < 64 → a.digests.getD g 0 ≠ r.digests.getD g 0 → getB s (modReg oModTwinStatus) 63 = false →
        ∃ t, exec (.twinRecordRx r) s = .next t ∧ SameMem s t ∧ (∀ c, getCore t c = getCore s c) ∧ CarRecord s t .twinDivergence 5 ∧
          getB t (modReg oModTwinStatus) 63 = true ∧ getF t (modReg oModTwinStatus) 62 60 = 1 ∧ getB t (modReg oModCkptCtl) 0 = true ∧
          getReg t (modReg oModTwinDivStep) = BitVec.ofNat 64 a.step ∧
          ∀ f, f < 64 → getB t (modReg oModTwinFields) f = decide (a.digests.getD f 0 ≠ r.digests.getD f 0))) ∧
    (∀ r c e, twinOn s = true → r.capture = some c → c.level = 3 → getF s (modReg oModTwinCtl) 3 2 = 3 →
      getB s (modReg oModTwinStatus) 32 = true → r.step = (getReg s (modReg oModTwinFineStep)).toNat →
      let f := getF s (modReg oModTwinCtl) 43 38
      let own := ownLog s f
      let back := firstDiff (sortedLog true own) (sortedLog true c.log)
      (firstDiff (sortedLog false own) (sortedLog false c.log)).or back = some e →
      ∃ t q, exec (.twinRecordRx r) s = .next t ∧ SameMem s t ∧ (∀ d, getCore t d = getCore s d) ∧ t.twin.report = some q ∧
        q.step = r.step ∧ q.field = f ∧ q.cluster = getF s (modReg oModTwinCtl) 51 44 ∧ q.window = getF s (modReg oModTwinCtl) 35 20 ∧
        q.tag = leNat ((e.drop 12).take 4) ∧ q.source = (e.getD 4 0#8).toNat ∧ q.beat = (e.getD 5 0#8).toNat ∧
        q.row = leNat ((e.drop 6).take 2) ∧ q.background = back.isSome) ∧
    (twinOn s = true → s.twin.last + 1000000 * getF s (modReg oModTwinLimits) 15 0 ≤ s.ns → getB s (modReg oModTwinStatus) 63 = false →
      ∃ t, exec .twinSilence s = .next t ∧ SameMem s t ∧ CarRecord s t .twinDivergence 5 ∧ t.twin.last = s.ns ∧
        getF t (modReg oModTwinStatus) 62 60 = 2 ∧ getB t (modReg oModCkptCtl) 0 = true)

/-- HUSH_STOP, IDLE_HUSH, HUSH_RESTART, RAIL_TIMEOUT, HUSH_ABORT, NO_HUSH_WITHIN_1_S, BACK_PENDING and MODULE_START_PULSE (R340, R350 to
R358, R360, R363, R527): stops leave memory and cores as they are; the restart reloads the field times, and waits for the synthesizer,
the rails and a reference switch; that `ClkSt.unready` holds the first two as last measured is the model's choice (log 70). START arms
the start pulse, STOP asks for a hush, and LOAD ends in an idle hush (R524, R526, R527). -/
def Obligations.HushesAndStarts : Prop :=
  ∀ (s : State),
    (∀ n : Fin 8, s.clocksOn = true → s.clk.kind = 0 → hushPoint s n = true → ∃ t, exec (.hushStop n) s = .next t ∧ Hushed s t 1) ∧
    (∀ m, Admitted s m true (modReg oClkHushCtl) 8 →
      (s.clk.kind = 0 → idleOk s = true → ∃ t, exec (.idleHush m) s = .next t ∧ Answered t .ok ∧ Hushed s t 2) ∧
      (s.clk.kind ≠ 0 ∨ idleOk s = false → ∃ t, exec (.idleHush m) s = .next t ∧ WriteRefused s t)) ∧
    (∀ m a v, Admitted s m true (modReg oClkHushCtl) 8 → s.clk.kind = 0 → idleOk s = true → s.shadow = [(a, v)] →
      0x200000000000 ≤ a → a < 0x202000000000 → shadowFree s a = true →
      ∃ t, exec (.idleHush m) s = .next t ∧ t.shadow = [] ∧
        getReg t a = (getReg s a &&& ~~~(BitVec.ofNat 64 (rwhMask a))) ||| (v &&& BitVec.ofNat 64 (rwhMask a))) ∧
    (mayRestart s = true → s.boot.stop = none → s.boot.update = none →
      (s.clk.causes = [] →
        ∃ t, exec .hushRestart s = .next t ∧ t.clocksOn = s.clk.started ∧ t.clk.kind = 0 ∧ SameMem s t ∧
          getB t (modReg oClkHushStatus) 34 = false ∧ getF t (modReg oClkHushStatus) 33 32 = 0 ∧
          getF t (modReg oClkHushStatus) 31 0 = (s.ns - s.clk.since) % 2 ^ 32 ∧
          getF t (modReg oClkHushStats) 63 32 = (getF s (modReg oClkHushStats) 63 32 + 1) % 2 ^ 32 ∧
          (∀ c, getCore t c = { getCore s c with hpHold := false }) ∧
          ∀ f, f < 64 → lagOf t f = 0 ∧ (fieldFenced s f = false → getReg t (fieldReg f oFldQtzTime) =
            if (getReg s (fieldReg f oFldQtzTime)).toNat ≤ quartz s then getReg s (modReg oQtzTime) else getReg s (fieldReg f oFldQtzTime))) ∧
      (s.clk.causes ≠ [] →
        ∃ t, exec .hushRestart s = .next t ∧ t.clocksOn = s.clocksOn ∧ t.clk = { s.clk with kind := 3 } ∧ SameMem s t ∧
          (∀ c, getCore t c = getCore s c) ∧ getF t (modReg oClkHushStatus) 33 32 = 3 ∧
          getF t (modReg oClkHushStats) 63 32 = (getF s (modReg oClkHushStats) 63 32 + 1) % 2 ^ 32 ∧
          SameRegsBut s t (fun r => r = modReg oClkHushStatus ∨ r = modReg oClkHushStats))) ∧
    (mayRestart s = false → exec .hushRestart s = .next s) ∧
    (s.clk.kind = 1 ∨ s.clk.kind = 2 → s.clk.since + 1000000 ≤ s.ns → getB s (modReg oClkHushStatus) 35 = false →
      ∃ t, exec .railTimeout s = .next t ∧ t = { s with regs := t.regs, carQ := t.carQ, clk := { s.clk with unready := true } } ∧
        mayRestart t = false ∧ CarRecord s t .railTimeout 5 ∧
        getB t (modReg oClkHushStatus) 35 = true ∧ SameRegsBut s t (· = modReg oClkHushStatus)) ∧
    (∀ m, Admitted s m true (modReg oClkHushCtl) 8 → s.clk.kind = 3 → s.clk.causes ≠ [] → (∀ c ∈ s.clk.causes, c = .slack ∨ c = .slip) →
      ∃ t, exec (.hushAbort m) s = .next t ∧ t = { s with regs := t.regs, clk := t.clk, pwr := t.pwr, reply := t.reply } ∧ Answered t .ok ∧
        t.pwr = { s.pwr with ramp := some s.ns } ∧ t.clk.causes = [] ∧ t.clk.kind = 3 ∧
        t.clk.aborting = some (if s.clk.causes.contains .slack then .slack else .slip) ∧ getF t (modReg oPwrStatus) 2 0 = 3 ∧
        SameRegsBut s t (· = modReg oPwrStatus)) ∧
    (∀ a, inBrace s = false → a.ready = false → a.waits = false → a.since + 1000000000 ≤ s.ns →
      (s.boot.stop = some a →
        ∃ t, exec .noHushWithin1S s = .next t ∧ t.boot.stop = none ∧ t.boot.prog = none ∧
          ∀ c, coreFenced s c = false → (getCore t c).mode = .reset) ∧
      (s.boot.stop = none → s.boot.update = some a → a.mb < 4 →
        ∃ t, exec .noHushWithin1S s = .next t ∧ t.boot.update = none ∧ getB t (modReg oClkHushCtl) 0 = false ∧
          getF t (modReg oCarUpdateStatus) 2 0 = 0)) ∧
    (∀ i q, (i = 1 ∨ i = 2) → qtzSrc s < i → srcEnabled s i = true → srcQual s i = some q → q + 2000000000 ≤ s.ns →
      ∃ t, exec (.backPending true) s = .next t ∧ t = { s with regs := t.regs } ∧ getB t (modReg oQtzStatus) 3 = true ∧
        SameRegsBut s t (· = modReg oQtzStatus)) ∧
    (∀ q, refQual s (getF s (modReg oClkRefCtl) 0 0) = some q → refSel s ≠ getF s (modReg oClkRefCtl) 0 0 → s.clk.switchTo = none →
      max q s.clk.switchDone + 2000000000 ≤ s.ns →
      ∃ t, exec (.backPending false) s = .next t ∧ t = { s with regs := t.regs } ∧ getB t (modReg oClkRefStatus) 3 = true ∧
        SameRegsBut s t (· = modReg oClkRefStatus)) ∧
    (∀ q, s.clk.armed = some q → q ≤ quartz s → s.clk.kind = 0 →
      ∃ t, exec .moduleStartPulse s = .next t ∧ SameMem s t ∧ t.cycle = 0 ∧ t.clocksOn = true ∧ t.clk.started = true ∧ t.clk.armed = none ∧
        (∀ f, f < 64 → getReg t (fieldReg f oFldQtzTime) = BitVec.ofNat 64 q) ∧
        (∀ c : CoreId, ∀ e, (getCore s c).armed = some e → coreFenced s c = false → entryOk s c e = true → (getCore s c).tasks.length = 4 →
          (getCore t c).mode = .run ∧ (getCore t c).armed = none ∧ (getCore t c).task = getF s (coreReg c (oCoreEntry + 8 * e)) 9 8 ∧
          (curTask (getCore t c)).pc = getF s (coreReg c (oCoreEntry + 8 * e)) 7 0) ∧
        ∀ k : CluId, ∀ w, (getClu s k).armed = some w → cluFenced s k = false → (getClu t k).mode = .run ∧ (getClu t k).pc = w) ∧
    (∀ mb : Fin 4, inBrace s = false → controlBusy s = false →
      (∀ p, s.boot.prog = some p → p.id = mbArg s mb 0 4 →
        (Posted s mb 0x0013 (fun n => n == 4 || n == 12) → allReset s = true → p.fields.find? (fieldFenced s) = none →
          (mbLen s mb = 4 ∨ quartz s + 5000000 ≤ mbArg s mb 4 8) →
          ∃ t, exec (.startI mb) s = .next t ∧ paceOf t = 4 ∧
            t.clk.armed = some (if mbLen s mb = 12 then mbArg s mb 4 8 else quartz s + 10000000)) ∧
        (Posted s mb 0x0013 (· == 4) → ∃ t, exec (.stopI mb) s = .next t ∧ getB t (modReg oClkHushCtl) 0 = true ∧
          t.boot.stop = some ⟨mb, s.ns, false, false⟩)) ∧
      (Posted s mb 0x0012 (· == 36) → mbArg s mb 32 4 = 0 → s.boot.prog = none → allReset s = true →
        let q : LoadReq := ⟨mbArg s mb 0 8, mbArg s mb 8 8, mbArg s mb 16 8, mbArg s mb 24 8, false, false⟩
        let l := rdBytes s q.addr q.len
        loadRange s (ownerOf s mb) q = stOk → loadFail s l q.twin = none → ∀ t1 id, loadProgram (fwRead s q.addr q.len) q l = .ok (t1, id) →
        ∃ t p, exec (.loadI mb) s = .next t ∧ t.boot.prog = some p ∧ p.id = s.boot.nextId ∧ t.clk.kind = 2 ∧ t.clocksOn = false))

/-- REF_LOSS, REF_QUALIFIED, REF_SWITCH_DONE, CLOCK_CHECK_FAIL, DROOP_DETECT, QTZ_SET, CLK_START, QTZ_STEER and QTZ_SOURCE_SWITCH (R338 to
R345, R359, R360, R363): a failed clock check takes the fields with it whose clock comes through the field (R341); a steered edge
advances the counter by 2 or by 0. -/
def Obligations.ClockEvents : Prop :=
  ∀ (s : State),
    (∀ b : Bool, refQual s b.toNat ≠ none →
      ((refSel s ≠ b.toNat ∨ s.clk.switchTo ≠ none) →
        ∃ t, exec (.refLoss b) s = .next t ∧ t = { s with regs := t.regs, clk := t.clk } ∧ refQual t b.toNat = none ∧
          getB t (modReg oClkRefStatus) b.toNat = false ∧ t.clk.switchTo = s.clk.switchTo ∧ SameRegsBut s t (· = modReg oClkRefStatus)) ∧
      (refSel s = b.toNat → s.clk.switchTo = none →
        ∃ t, exec (.refLoss b) s = .next t ∧ refQual t b.toNat = none ∧ getB t (modReg oClkRefStatus) 5 = true ∧
          getF t (modReg oClkRefEvents) 15 0 = (getF s (modReg oClkRefEvents) 15 0 + 1) % 65536 ∧
          (refQual s (1 - b.toNat) ≠ none → t.clk.switchTo = some (1 - b.toNat) ∧ getB t (modReg oClkRefStatus) 4 = true) ∧
          (refQual s (1 - b.toNat) = none → CarRecord s t .clockHoldover 5))) ∧
    (∀ b : Bool, refQual s b.toNat = none →
      ∃ t, exec (.refQualified b) s = .next t ∧ t = { s with regs := t.regs, clk := t.clk } ∧ refQual t b.toNat = some s.ns ∧
        getB t (modReg oClkRefStatus) b.toNat = true ∧
        (getB s (modReg oClkRefStatus) 5 = true → s.clk.switchTo = none → refSel s = b.toNat → getB t (modReg oClkRefStatus) 5 = false) ∧
        (getB s (modReg oClkRefStatus) 5 = true → s.clk.switchTo = none → refSel s ≠ b.toNat → t.clk.switchTo = some b.toNat)) ∧
    (∀ i, i < 2 → s.clk.switchTo = some i → refQual s i ≠ none →
      ∃ t, exec .refSwitchDone s = .next t ∧ t = { s with regs := t.regs, clk := { s.clk with switchTo := none, switchDone := s.ns } } ∧
        refSel t = i ∧ getB t (modReg oClkRefStatus) 4 = false ∧ getB t (modReg oClkRefStatus) 5 = false ∧
        SameRegsBut s t (· = modReg oClkRefStatus)) ∧
    (∀ f : FieldId, ∃ t, exec (.clockCheckFail f) s = .next t ∧ ∀ g, g < 64 → (g = f.val ∨ f.val ∈ clockPath 6 g) →
      fieldFenced t g = true ∧ getB t (fieldReg g oFldClkStatus) 15 = false ∧
      (fieldFenced s g = false → getF t (fieldReg g oFldFenceStatus) 15 8 = 4)) ∧
    (∀ (f : FieldId) (u : Fin 256), s.clocksOn = true → fieldFenced s f = false → cluFenced s (256 * f.val + u.val) = false →
      getB s (fieldReg f (oFldDroopEn + 8 * (u.val / 64))) (u.val % 64) = true →
      ∃ t, exec (.droopDetect f u) s = .next t ∧ t = { s with fields := t.fields } ∧ SameFieldsBut s t f ∧
        getField t f = { getField s f with stretchReqs := if (getField s f).stretchReqs.contains (s.cycle + 3, true)
          then (getField s f).stretchReqs else (getField s f).stretchReqs ++ [(s.cycle + 3, true)] }) ∧
    (∀ m (v : W64), Admitted s m true (modReg oQtzSet) 8 →
      (allReset s = true → ∃ t, exec (.qtzSet m v) s = .next t ∧ t = { s with regs := t.regs, reply := t.reply } ∧ Answered t .ok ∧
        getReg t (modReg oQtzTime) = v ∧ ∀ f, f < 64 → getReg t (fieldReg f oFldQtzTime) = v) ∧
      (allReset s = false → ∃ t, exec (.qtzSet m v) s = .next t ∧ WriteRefused s t ∧ quartz t = quartz s)) ∧
    (∀ m (v : W64), Admitted s m true (modReg oClkStart) 8 →
      (allReset s = true → quartz s < v.toNat →
        ∃ t, exec (.clkStart m v) s = .next t ∧ t = { s with clk := { s.clk with armed := some v.toNat }, reply := t.reply } ∧ Answered t .ok) ∧
      (allReset s = false ∨ v.toNat ≤ quartz s → ∃ t, exec (.clkStart m v) s = .next t ∧ WriteRefused s t)) ∧
    (∀ double, s.clk.steer = none → (∀ q, s.clk.lastSteer = some q → q + 4096 ≤ s.ns) →
      ∃ t, exec (.qtzSteer double) s = .next t ∧
        t = { s with regs := t.regs, clk := { s.clk with lastSteer := some s.ns, steer := some double } } ∧
        (double = true → getF t (modReg oQtzSteer) 31 0 = (getF s (modReg oQtzSteer) 31 0 + 1) % 2 ^ 32) ∧
        (double = false → getF t (modReg oQtzSteer) 63 32 = (getF s (modReg oQtzSteer) 63 32 + 1) % 2 ^ 32) ∧
        SameRegsBut s t (· = modReg oQtzSteer) ∧
        quartz (passNs t 1) = (quartz s + if double then 2 else 0) % 2 ^ 64) ∧
    (∀ q double, s.clk.lastSteer = some q → s.ns < q + 4096 → exec (.qtzSteer double) s = .next s) ∧
    (∀ src : Fin 3, src.val ≠ 0 →
      (srcQual s src = none → srcEarned s src = true → ∃ t, exec (.qtzSourceSwitch src true) s = .next t ∧
        t = { s with regs := t.regs, clk := t.clk } ∧ srcQual t src = some s.ns ∧ (∀ i, i ≠ src.val → srcQual t i = srcQual s i) ∧
        SameRegsBut s t (· = modReg oQtzStatus)) ∧
      (srcQual s src ≠ none → ∃ t, exec (.qtzSourceSwitch src false) s = .next t ∧ t = { s with regs := t.regs, clk := t.clk } ∧
        srcQual t src = none ∧ SameRegsBut s t (· = modReg oQtzStatus) ∧
        getB t (modReg oQtzStatus) 3 = (getB s (modReg oQtzStatus) 3 && (readySrc t).isSome) ∧
        (qtzSrc s = src.val → qtzSrc t = bestBelow s src) ∧
        (qtzSrc s ≠ src.val → (qtzSrc s = 0 ∨ (srcEnabled s (qtzSrc s) = true ∧ srcQual s (qtzSrc s) ≠ none)) → qtzSrc t = qtzSrc s)))

/-- The control of a tensor link: LINK_EN, LINK_RETRAIN, LINK_FORCE_DOWN, LINK_RETRY, TRAINING_STEP_TIMEOUT, SILENT_TIMEOUT, LANE_FAILURE,
LINK_DOWN, FRAME_START, FRAME_HEADER_RX, SLIP_ANNOUNCE and SLIP_FRAME (R373 to R379, R393 to R399). -/
def Obligations.LinkControl : Prop :=
  ∀ (s : State) (l : Fin 40),
    (∀ m (v : W64), Admitted s m true (linkReg l oLnkCtl) 8 →
      (lnkState s l = 0 → v.getLsbD 0 = true → v.getLsbD 1 = false → v.getLsbD 2 = false →
        ∃ t, exec (.linkEn m l v) s = .next t ∧ Answered t .ok ∧ Trains s t l ∧ getB t (linkReg l oLnkCtl) 0 = true) ∧
      (v.getLsbD 0 = false → ∃ t, exec (.linkEn m l v) s = .next t ∧ Answered t .ok ∧ lnkState t l = 0 ∧ getB t (linkReg l oLnkCtl) 0 = false)) ∧
    (∀ m, Admitted s m true (linkReg l oLnkCtl) 8 → getB s (linkReg l oLnkCtl) 0 = true →
      (lnkState s l = 4 ∨ lnkState s l = 2 → ∃ t, exec (.linkRetrain m l) s = .next t ∧ Answered t .ok ∧ Trains s t l) ∧
      (1 ≤ lnkState s l → lnkState s l ≤ 3 → ∃ t, exec (.linkForceDown m l) s = .next t ∧ Answered t .ok ∧ LinkFailed s t l 4)) ∧
    (lnkState s l = 4 → getB s (linkReg l oLnkCtl) 3 = true → getB s (linkReg l oLnkCtl) 0 = true →
      (getLink s l).downAt + 100000000 ≤ s.ns → ∃ t, exec (.linkRetry l) s = .next t ∧ Trains s t l) ∧
    (∀ step : Fin 7, lnkState s l = 1 → 4 ≤ step.val → (getLink s l).step = step.val → (getLink s l).since + stepLimit step < s.ns →
      ∃ t, exec (.trainingStepTimeout l step) s = .next t ∧ LinkFailed s t l 5) ∧
    (lnkState s l = 3 → 5 ≤ (getLink s l).missed → ∃ t, exec (.silentTimeout l) s = .next t ∧ LinkFailed s t l 3) ∧
    (∀ lane : Fin 34, lnkState s l = 3 → getB s (linkReg l oLnkLanes) lane = false → (∀ k ∈ (getLink s l).spares, k.tx = true) →
      lane.val ∉ (getLink s l).waiting →
      ((goodLanes s l).length < 33 + (getLink s l).waiting.length → ∃ t, exec (.laneFailure l lane) s = .next t ∧ LinkFailed s t l 1) ∧
      (33 + (getLink s l).waiting.length ≤ (goodLanes s l).length →
        ∃ t, exec (.laneFailure l lane) s = .next t ∧ t = { s with regs := t.regs, links := t.links } ∧
          getB t (linkReg l oLnkStatus) 18 = true ∧ SameRegsBut s t (· = linkReg l oLnkStatus) ∧
          (getLink t l).spares = (getLink s l).spares ++ [⟨curFrame s + 3, lane, false⟩])) ∧
    (∀ cause, (getLink s l).failing = some cause →
      ∃ t, exec (.linkDown l) s = .next t ∧ SameMem s t ∧ (getLink t l).failing = none ∧ (getLink t l).sent = [] ∧ (getLink t l).pre = [] ∧
        (getLink t l).held = keepGood (getLink s l).held [] ∧
        (∀ k ∈ (getLink s l).sent, ∀ c ch, k.core = some (c, ch) → (getCore t c).mode = .faulted) ∧
        (NothingInFlight s l → CarRecord s t .linkLost 4 ∧ ∀ c, getCore t c = getCore s c)) ∧
    (∀ n, (getReg s (modReg oLnkFrameBase)).toNat ≤ quartz s → (smKeys s.links).Nodup →
      n = (quartz s - (getReg s (modReg oLnkFrameBase)).toNat) / 2000 - getF s (modReg oLnkSlipStatus) 63 32 →
      curFrame s < n → frameTime s n ≤ quartz s → (∀ p ∈ s.dom.slips, n < p.1) →
      ∃ t, exec .frameStart s = .next t ∧ SameMem s t ∧ (∀ c, getCore t c = getCore s c) ∧ getReg t (modReg oLnkFrame) = BitVec.ofNat 64 n ∧
        ∀ k ∈ smKeys s.links, (getLink t k).missed = if lnkState s k = 3 then (getLink s k).missed + 1 else 0) ∧
    (∀ (frac : Fin 256) (h : Header),
      (lnkState s l = 3 →
        let d : Int := (256 * (quartz s : Int) + frac.val - h.tEcho - h.turn).tdiv 2
        ∃ t, exec (.frameHeaderRx l frac h) s = .next t ∧ SameMem s t ∧ (∀ c, getCore t c = getCore s c) ∧
          getReg t (linkReg l oLnkPeerId) = h.serial ∧ (getLink t l).ds = (d :: (getLink s l).ds).take 64 ∧
          getF t (linkReg l oLnkDelay) 31 0 = patternOf 32 (meanInt ((d :: (getLink s l).ds).take 64)) ∧
          (getLink t l).missed = 0 ∧ (getLink t l).mgmt = h.mgmt) ∧
      (lnkState s l = 1 → (getLink s l).step = 5 → h.v20 = false → h.v12 = false →
        ∃ t, exec (.frameHeaderRx l frac h) s = .next t ∧ LinkFailed s t l 7) ∧
      (lnkState s l = 1 → (getLink s l).step = 5 → (h.v20 = true ∨ h.v12 = true) →
        ∃ t, exec (.frameHeaderRx l frac h) s = .next t ∧ SameMem s t ∧
          (mismatched s l h = true → lnkState t l = 2 ∧ (getLink t l).step = 0) ∧
          (mismatched s l h = false → lnkState t l = 1 ∧ (getLink t l).step = 6 ∧ getF t (linkReg l oLnkStatus) 15 8 = if h.v20 then 0x20 else 0x12)) ∧
      (lnkState s l = 1 → (getLink s l).step = 6 → 63 ≤ (getLink s l).frames →
        ∃ t, exec (.frameHeaderRx l frac h) s = .next t ∧ lnkState t l = 3 ∧ (getLink t l).held = [] ∧ (getLink t l).sent = [])) ∧
    (∀ o fr : Fin 32768,
      let e := nearFrame s 15 fr
      (e ∉ s.dom.slipped → curFrame s < e → (∀ p ∈ s.dom.slips, p.1 ≠ e) →
        ∃ t, exec (.slipAnnounce o fr) s = .next t ∧ t = { s with regs := t.regs, dom := t.dom } ∧
          t.dom = { s.dom with slips := s.dom.slips ++ [(e, o.val)] } ∧ SameRegsBut s t (· = modReg oLnkSlipStatus)) ∧
      (e ∉ s.dom.slipped → e ≤ curFrame s →
        ∃ t, exec (.slipAnnounce o fr) s = .next t ∧ SameMem s t ∧ getB t (modReg oLnkSlipStatus) 31 = true ∧ CarRecord s t .slipMissed 5 ∧
          StopCause.slip ∈ t.clk.causes ∧ (s.clk.kind = 0 → t.clocksOn = false ∧ t.clk.kind = 3))) ∧
    (∀ p, (s.dom.slips.find? fun p => decide (frameTime s p.1 ≤ quartz s)) = some p →
      ∃ t, exec .slipFrame s = .next t ∧ t = { s with regs := t.regs, dom := t.dom } ∧ SameRegsBut s t (· = modReg oLnkSlipStatus) ∧
        t.dom = { s.dom with slips := s.dom.slips.filter (fun q => q.1 != p.1), slipped := s.dom.slipped ++ [p.1] } ∧
        getF t (modReg oLnkSlipStatus) 63 32 = (getF s (modReg oLnkSlipStatus) 63 32 + 1) % 2 ^ 32)

/-- Cells of a tensor link: CELL_PREFETCH, CELL_RX, CELL_RELEASE and REPLAY (R382 to R392): at its prefetch point a cell's rows are asked
for; the position carries it once all of them have been read, and is empty otherwise. -/
def Obligations.LinkCells : Prop :=
  ∀ (s : State) (l : Fin 40),
    (∀ (n : Nat) (g : Fin 240) (i : Fin 8) (q : Nat), PlansPosition s l n (8 * g.val + i.val) q →
      let r := lchReg l q
      let core := portCore l (getF s r 61 56)
      let y := getLch (getLink s l) q
      let tile := getF s r 55 50 + y.sent % (getF s r 49 46 + 1)
      let rows := getF s r 34 30 + 1
      (ReadyCell s l q → s.clocksOn = true →
        ∃ t k, exec (.cellPrefetch l n g i) s = .next t ∧ SameMem s t ∧ SameRegs s t ∧ SameCoresBut s t core ∧
          (getLink t l).pre = (getLink s l).pre ++ [k] ∧ (getLink t l).slots = (getLink s l).slots ++ [(n, 8 * g.val + i.val, q)] ∧
          (getLink t l).sent = (getLink s l).sent ∧ k.lch = q ∧ k.core = core ∧ k.rcpt = getF s r 40 35 ∧ k.tile = tile ∧
          k.gen = getF s (coreReg core oCoreCtrStatus) 19 16 ∧ k.rows = List.replicate rows none ∧
          (getLch (getLink t l) q).sent = (y.sent + 1) % 65536 ∧ (getLch (getLink t l) q).seq = y.seq ∧
          (getCore t core).bgr = (getCore s core).bgr ++ (List.range rows).map (fun i => ⟨.egress l k.id i, 32 * tile + i⟩) ∧
          getCore t core = { getCore s core with bgr := (getCore t core).bgr }) ∧
      (¬ ReadyCell s l q → ∃ t, exec (.cellPrefetch l n g i) s = .next t ∧ SameMem s t ∧ (getLink t l).sent = (getLink s l).sent ∧
        (getLink t l).pre = (getLink s l).pre ∧ (getLink t l).slots = (getLink s l).slots ∧
        getF t (linkReg l oLnkUnderrun) 63 32 = (getF s (linkReg l oLnkUnderrun) 63 32 + 1) % 2 ^ 32 ∧
        SameRegsBut s t (· = linkReg l oLnkUnderrun))) ∧
    (∀ n p q k, s.clocksOn = true → getB s (lchReg l q) 62 = false → (getLink s l).pre.find? (·.lch == q) = some k →
      coreFenced s k.core = false →
      let t := startPosition s l n p q
      (k.rows.all (·.isSome) = true → ∃ j, (getLink t l).sent = (getLink s l).sent ++ [j] ∧ j.frame = n ∧ j.pos = p ∧ j.lch = q ∧
        j.seq = (getLch (getLink s l) q).seq ∧ j.gen = k.gen ∧ j.core = some (k.core, k.rcpt) ∧ j.rows.map some = k.rows ∧
        (getLch (getLink t l) q).seq = ((getLch (getLink s l) q).seq + 1) % 65536 ∧
        getF t (linkReg l oLnkCells) 63 32 = (getF s (linkReg l oLnkCells) 63 32 + 1) % 2 ^ 32) ∧
      (k.rows.all (·.isSome) = false → (getLink t l).sent = (getLink s l).sent ∧ (getLink t l).pre = (getLink s l).pre ∧
        getF t (linkReg l oLnkUnderrun) 63 32 = (getF s (linkReg l oLnkUnderrun) 63 32 + 1) % 2 ^ 32)) ∧
    (∀ (n : Nat) (p : Fin 1920) (c : Cell), lnkState s l = 3 →
      (c.empty = false → c.replay = false → (c.good = true → PlainCell c) →
        ∃ t, exec (.cellRx l n p c) s = .next t ∧ t = { s with links := t.links } ∧
          (getLink t l).held = (getLink s l).held ++ [heldOf s l n p c] ∧
          (getLink t l).naks = (getLink s l).naks ++ if c.good then [] else [(n, p.val)]) ∧
      (∀ f a, c.good = true → c.empty = true → c.nak = none → c.slip = none → c.ack = some (f, a) →
        ∃ t, exec (.cellRx l n p c) s = .next t ∧ SameMem s t ∧ (getLink t l).sent = (getLink s l).sent.filter fun k =>
          !(decide (posNo k.frame k.pos ≤ posNo (nearFrame s 4 f) a) && k.nakAt.isNone)) ∧
      (c.good = true → PlainCell { c with replay := false } → c.replay = true →
        ∃ t, exec (.cellRx l n p c) s = .next t ∧ t = { s with links := t.links } ∧
          (getLink t l).held = (getLink s l).held.map fun h => if h.lch = c.lch.val ∧ h.seq = c.seq.val ∧ !h.good then
            { h with good := true, gen := c.gen, rows := c.rows } else h)) ∧
    (∀ (q : Fin 64) (h : HeldCell), heldHead (getLink s l) q = some h → reached s h.rel = true → tokenChannel s q = false →
      (∀ row, h.good = true → canLeave s l h = true → (∀ j, j < 64 → goesBefore s l h j = false) →
        getB s (lchReg l q) 29 = true → getB s (lchReg l q) 28 = false → h.rows = [row] →
        let core := portCore l (getF s (lchReg l q) 27 22)
        coreFenced s core = false →
        ∃ t b, exec (.cellRelease l q) s = .next t ∧ SameMem s t ∧ SameCoresBut s t core ∧ (getLink t l).held = dropHead q (getLink s l).held ∧
          getF t (linkReg l oLnkCells) 31 0 = (getF s (linkReg l oLnkCells) 31 0 + 1) % 2 ^ 32 ∧ SameRegsBut s t (· = linkReg l oLnkCells) ∧
          (getCore t core).aq = (getCore s core).aq.set (portDir l) ((getCore s core).aq.getD (portDir l) [] ++ [⟨b, s.cycle⟩]) ∧
          b.data = row ∧ b.first = true ∧ b.last = true ∧ b.gen = h.gen ∧ b.dst = core ∧ b.dstChan = getF s (lchReg l q) 21 16 ∧ b.ok = true) ∧
      (h.good = false → h.late = false →
        ∃ t, exec (.cellRelease l q) s = .next t ∧ SameMem s t ∧ (∀ c, getCore t c = getCore s c) ∧
          getF t (linkReg l oLnkReplay) 31 0 = (getF s (linkReg l oLnkReplay) 31 0 + 1) % 2 ^ 32 ∧
          ∃ o, (h.relFrame + getF s (modReg oLnkSlipCtl) 15 8, o) ∈ t.dom.slips)) ∧
    (∀ (n : Nat) (p : Fin 1920) (k : SentCell), ReplaySlot s l n p → (getLink s l).sent.find? (replayable (posTime s l n p)) = some k →
      (k.tries < 8 →
        ∃ t, exec (.replay l n p) s = .next t ∧ SameMem s t ∧ (∀ c, getCore t c = getCore s c) ∧ (getLink t l).resv = posNo n p ∧
          (getLink t l).sent = (getLink s l).sent.map (fun j => if j = k then { j with frame := n, pos := p, tries := j.tries + 1, nakAt := none } else j) ∧
          getF t (linkReg l oLnkReplay) 63 32 = (getF s (linkReg l oLnkReplay) 63 32 + 1) % 2 ^ 32 ∧
          getF t (linkReg l oLnkCells) 63 32 = (getF s (linkReg l oLnkCells) 63 32 + 1) % 2 ^ 32) ∧
      (8 ≤ k.tries → ∃ t, exec (.replay l n p) s = .next t ∧ LinkFailed s t l 2))

/-- RDMA_READ, RDMA_WRITE, RDMA_UNSUPPORTED, MGMT_DATAGRAM, SERVICE_LINK_DOWN, HOST_BAR_ACCESS, MAILBOX_DOORBELL, HOST_LINK_DOWN and
PERST (R463 to R469, R473, R592). -/
def Obligations.HostAndServiceAccesses : Prop :=
  ∀ (s : State),
    (∀ (j : Fin 8) (qpn : BitVec 24) (rkey : W32) (va : W64) (data : List Byte) (len : W32), s.boot.power = true → svcUp s j = true →
      (qpGroup s j qpn.toNat = none →
        (∃ t, exec (.rdmaWrite j qpn rkey va data) s = .next t ∧ t = { s with regs := t.regs, reply := t.reply } ∧ Answered t .nakInvalid) ∧
        (∃ t, exec (.rdmaRead j qpn rkey va len) s = .next t ∧ t = { s with regs := t.regs, reply := t.reply } ∧ Answered t .nakInvalid)) ∧
      (∀ g, qpGroup s j qpn.toNat = some g → windowAddr s g rkey.toNat va.toNat data.length true = none →
        ∃ t, exec (.rdmaWrite j qpn rkey va data) s = .next t ∧ t = { s with regs := t.regs, reply := t.reply } ∧ Answered t .nakAccess) ∧
      (∀ g, qpGroup s j qpn.toNat = some g → windowAddr s g rkey.toNat va.toNat len.toNat false = none →
        ∃ t, exec (.rdmaRead j qpn rkey va len) s = .next t ∧ t = { s with regs := t.regs, reply := t.reply } ∧ Answered t .nakAccess) ∧
      (∀ g a, qpGroup s j qpn.toNat = some g → windowAddr s g rkey.toNat va.toNat data.length true = some a → data ≠ [] →
        data.length ≤ mtuOf s qpn.toNat → checkAt s (.group g) true (.stacked (a / fieldBytes) (a % fieldBytes)) a data.length = .ok →
        (gwBusy s (a / 0x400000000) 3 = false → ∃ t, exec (.rdmaWrite j qpn rkey va data) s = .next t ∧ RdmaSent s t g j true a data.length data) ∧
        (gwBusy s (a / 0x400000000) 3 = true → ∃ t, exec (.rdmaWrite j qpn rkey va data) s = .next t ∧ Answered t .rnrNak ∧ SameMem s t)) ∧
      (∀ g a, qpGroup s j qpn.toNat = some g → windowAddr s g rkey.toNat va.toNat len.toNat false = some a → len.toNat ≠ 0 →
        len.toNat ≤ mtuOf s qpn.toNat → checkAt s (.group g) false (.stacked (a / fieldBytes) (a % fieldBytes)) a len.toNat = .ok →
        gwBusy s (a / 0x400000000) 3 = false → ∃ t, exec (.rdmaRead j qpn rkey va len) s = .next t ∧ RdmaSent s t g j false a len.toNat []) ∧
      (∃ t, exec (.rdmaUnsupported j) s = .next t ∧ t = { s with regs := t.regs, reply := t.reply } ∧ Answered t .nakInvalid ∧
        getF t (linkReg (40 + j.val) oSvcRdmaNaks) 15 0 = (getF s (linkReg (40 + j.val) oSvcRdmaNaks) 15 0 + 1) % 65536)) ∧
    (∀ (j : Fin 4) (port : BitVec 16) (v6 : Bool) (addr : W32) (data : List Byte), s.boot.power = true → svcUp s j = true →
      getF s (modReg oSvcMgmt) 15 0 = port.toNat → port.toNat ≠ 0 →
      ((∃ n, n < 16 ∧ getB s (modReg (oSvcMgmtPeer + 8 * n)) 63 = v6 ∧ getF s (modReg (oSvcMgmtPeer + 8 * n)) 31 0 = addr.toNat) →
        addr ≠ 0#32 → data.length ≤ 8192 → runtimeOn s = true →
        ∃ t, exec (.mgmtDatagram j port v6 addr data) s = .next t ∧ t = { s with host := { s.host with mgmt := s.host.mgmt ++ [data] } }) ∧
      ((∀ n, n < 16 → ¬ (getB s (modReg (oSvcMgmtPeer + 8 * n)) 63 = v6 ∧ getF s (modReg (oSvcMgmtPeer + 8 * n)) 31 0 = addr.toNat)) →
        ∃ t, exec (.mgmtDatagram j port v6 addr data) s = .next t ∧ t = { s with regs := t.regs } ∧ SameRegsBut s t (· = modReg oSvcMgmt) ∧
          getF t (modReg oSvcMgmt) 31 16 = (getF s (modReg oSvcMgmt) 31 16 + 1) % 65536)) ∧
    (∀ (j : Fin 8) (up : Bool), s.boot.power = true →
      ∃ t, exec (.serviceLinkDown j up) s = .next t ∧ t = { s with regs := t.regs } ∧
        SameRegsBut s t (· = linkReg (40 + j.val) oSvcEthStatus) ∧
        svcUp t j = (up && getB s (linkReg (40 + j.val) oSvcEthCtl) 0)) ∧
    (∀ (bar2 : Bool) (off : Fin 0x100000000) (waited : Bool), reaches s .host = true →
      (barAddr s bar2 off = none → ∀ (len : Nat) (w : Option (List Byte)),
        exec (.hostBarAccess bar2 off len w waited) s =
          .next { s with reply := some ⟨.ok, if w.isSome then [] else List.replicate len 0#8⟩ }) ∧
      (∀ a o, barAddr s bar2 off = some a → decodeAddr a = some (.module o) → Admitted s .host false a 8 →
        exec (.hostBarAccess bar2 off 8 none waited) s = .next { s with reply := some ⟨.ok, natLe 8 (readReg s a).toNat⟩ })) ∧
    (∀ (w : Master) (mb : Fin 4) (v : W64), Admitted s w true (mbCmdReg mb) 8 →
      (unanswered s mb (v.toNat % 128) ≤ 64 →
        ∃ t, exec (.mailboxDoorbell w mb v) s = .next t ∧ Answered t .ok ∧ mbTail t mb = v.toNat % 128 ∧ ∀ c, getCore t c = getCore s c) ∧
      (64 < unanswered s mb (v.toNat % 128) → ∃ t, exec (.mailboxDoorbell w mb v) s = .next t ∧ WriteRefused s t ∧ mbTail t mb = mbTail s mb)) ∧
    (s.boot.power = true → s.host.link = true →
      ∃ t, exec .hostLinkDown s = .next t ∧ t = { s with regs := t.regs, host := t.host } ∧ t.host.link = false ∧
        ∀ m, m < 4 → (unanswered s m (mbTail s m) = 0 → sessionOf t m = none) ∧
          (unanswered s m (mbTail s m) ≠ 0 → sessionOf t m = sessionOf s m) ∧
          (sessionOf s m ≠ none → s.host.discard.length = 4 → t.host.discard.getD m 0 = unanswered s m (mbTail s m))) ∧
    (∃ t, exec (.perst true) s = .next t ∧ t = { s with regs := t.regs, host := t.host } ∧ t.host.perst = true ∧ t.host.link = false) ∧
    exec (.perst false) s = .next { s with host := { s.host with perst := false, link := s.boot.power } }

/-- HELLO, BYE, ALLOC, FREE, QP_SETUP, QP_DESTROY, WIN_OPEN, WIN_CLOSE, FENCE, CHECKPOINT, FAULTS and TELEMETRY (R327, R328, R440, R464, R466,
R470 to R472, R543): the next command of a mailbox has its effect and its response. -/
def Obligations.SessionCommands : Prop :=
  ∀ (s : State) (mb : Fin 4),
    (Posted s mb 0x0001 (· == 20) → s.host.sessions.length = 4 →
      (mbArg s mb 0 1 = 3 →
        let f := offered s &&& mbArg s mb 4 16
        ∃ t, exec (.hello mb) s = .next t ∧ sessionOf t mb = some ⟨mbArg s mb 2 2, min (mbArg s mb 1 1) 1, f⟩ ∧
          Responded s t mb stOk (natLe 1 3 ++ natLe 1 1 ++ natLe 4 (rtVersion s) ++ natLe 16 (offered s) ++ natLe 16 f ++
            natLe 4 (3 * 2 ^ 28 + 4 * mbArg s mb 2 2 + mb.val))) ∧
      (mbArg s mb 0 1 ≠ 3 → ∃ t, exec (.hello mb) s = .next t ∧ sessionOf t mb = none ∧ Responded s t mb stVersion [])) ∧
    (Posted s mb 0x0002 (· == 0) →
      ∃ t, exec (.bye mb) s = .next t ∧ sessionOf t mb = none ∧ t.host.allocs = s.host.allocs ∧ t.host.wins = s.host.wins ∧ Responded s t mb stOk []) ∧
    (Posted s mb 0x0020 (· == 18) → inBrace s = false →
      let f := mbArg s mb 0 1
      let size := mbArg s mb 2 8
      let al := mbArg s mb 10 8
      (f < 64 ∨ f = 255) → mbArg s mb 1 1 ≤ 1 → size ≠ 0 → size % 65536 = 0 → al % 65536 = 0 → isPow2 al = true →
      (∀ a, place s (allowed f) size al (ownerOf s mb) = some a →
        ∃ t, exec (.allocI mb) s = .next t ∧ t.host.allocs = s.host.allocs ++ [a] ∧
          (mbArg s mb 1 1 = 1 → ∀ b, b < size → rdByte t (allocAddr a + b) = 0#8) ∧
          Responded s t mb stOk (natLe 8 (handleOf a) ++ natLe 8 (allocAddr a))) ∧
      (place s (allowed f) size al (ownerOf s mb) = none →
        ∃ t, exec (.allocI mb) s = .next t ∧ t.host.allocs = s.host.allocs ∧ Responded s t mb stNoSpace [])) ∧
    (Posted s mb 0x0021 (· == 8) → inBrace s = false →
      (∀ a, freeStatus s (mbArg s mb 0 8) (ownerOf s mb) = (stOk, some a) →
        ∃ t, exec (.freeI mb) s = .next t ∧ t.host.allocs = s.host.allocs.filter (· ≠ a) ∧ Responded s t mb stOk []) ∧
      (∀ st a, freeStatus s (mbArg s mb 0 8) (ownerOf s mb) = (st, a) → st ≠ stOk →
        ∃ t, exec (.freeI mb) s = .next t ∧ t.host.allocs = s.host.allocs ∧ Responded s t mb st [])) ∧
    (Posted s mb 0x0030 (· == 31) → mbArg s mb 0 1 < 32 → mbArg s mb 1 1 < 64 → 3 ≤ mbArg s mb 2 1 → mbArg s mb 2 1 ≤ 5 →
      ∃ t p, exec (.qpSetup mb) s = .next t ∧ p ∈ t.host.qps ∧ p.group = mbArg s mb 0 1 ∧ p.q = mbArg s mb 1 1 ∧
        p.mtu = 128 * 2 ^ mbArg s mb 2 1 ∧ Responded s t mb stOk []) ∧
    (Posted s mb 0x0031 (· == 2) →
      let named := fun x : QPair => x.group == mbArg s mb 0 1 && x.q == mbArg s mb 1 1
      ∃ t, exec (.qpDestroy mb) s = .next t ∧ t.host.qps = s.host.qps.filter (fun x => !named x) ∧
        Responded s t mb (if s.host.qps.any named then stOk else stInvalidHandle) []) ∧
    (Posted s mb 0x0032 (· == 26) →
      let off := mbArg s mb 8 8
      let size := mbArg s mb 16 8
      let g := mbArg s mb 24 1
      let rights := mbArg s mb 25 1
      off % 65536 = 0 → size % 65536 = 0 → size ≠ 0 → g < 32 → rights ≤ 3 →
      ∀ a n gw, allocOfHandle s (mbArg s mb 0 8) = some a → a.field < 64 → a.off + off + size ≤ 0x400000000 →
      rangeStatus s (ownerOf s mb) (memBase a.field + (a.off + off)) size = stOk → fieldFenced s a.field = false →
      ((List.range 256).find? fun n => !(s.host.wins.any (·.n == n))) = some n → freeWindow s (fieldReg a.field oSvcGwwin) 4 = some gw →
      let c := modReg (oSvcRwinCtl + 0x20 * n)
      let gen := (getF s c 23 0 + 1) % 2 ^ 24
      ∃ t, exec (.winOpen mb) s = .next t ∧ t.host.wins = s.host.wins ++ [⟨n, a.field, a.off + off, size, g, gw⟩] ∧
        (getReg t (modReg (oSvcRwinBase + 0x20 * n))).toNat = memBase a.field + a.off + off ∧
        (getReg t (modReg (oSvcRwinSize + 0x20 * n))).toNat = size ∧ winOpen t n = true ∧ getB t c 62 = bitOf rights 0 ∧
        getB t c 61 = bitOf rights 1 ∧ getF t c 60 56 = g ∧ getF t c 23 0 = gen ∧
        Responded s t mb stOk (natLe 1 n ++ natLe 4 (n * 2 ^ 24 + gen))) ∧
    (Posted s mb 0x0033 (· == 1) → inBrace s = false →
      let n := mbArg s mb 0 1
      let c := modReg (oSvcRwinCtl + 0x20 * n)
      (winOpen s n = false → ∃ t, exec (.winClose mb) s = .next t ∧ Responded s t mb stInvalidHandle []) ∧
      (∀ w, winOpen s n = true → s.host.wins.find? (·.n == n) = some w → n = w.n →
        ∃ t, exec (.winClose mb) s = .next t ∧ winOpen t n = false ∧ getF t c 23 0 = (getF s c 23 0 + 1) % 2 ^ 24 ∧
          (overlapping s w.field w.lo w.size = 0 → t.host.wins = s.host.wins.filter (· ≠ w) ∧ Responded s t mb stOk []) ∧
          (0 < overlapping s w.field w.lo w.size → t.host.wins = s.host.wins ∧ t.host.closing = s.host.closing ++ [(mb.val, n)]))) ∧
    (Posted s mb 0x0040 (· == 3) → mbArg s mb 0 1 < 64 →
      let f := mbArg s mb 0 1
      let k := 256 * f + mbArg s mb 1 2
      (mbArg s mb 1 2 = 0xFFFF → fieldFenced s f = false → (getField s f).fenceReq = none → s.clk.kind ≠ 0 →
        ∃ t, exec (.fenceI mb) s = .next t ∧ fieldFenced t f = true ∧ getF t (fieldReg f oFldFenceStatus) 15 8 = 1 ∧ Responded s t mb stOk []) ∧
      (mbArg s mb 1 2 = 0xFFFF → fieldFenced s f = false → (getField s f).fenceReq = none → s.clk.kind = 0 →
        ∃ t, exec (.fenceI mb) s = .next t ∧ (getField t f).fenceReq = some 1 ∧ Responded s t mb stOk []) ∧
      (mbArg s mb 1 2 < 256 → cluFenced s k = false → (getClu s k).fenceReq = none → s.clk.kind = 0 →
        ∃ t, exec (.fenceI mb) s = .next t ∧ (getClu t k).fenceReq = some 1 ∧ Responded s t mb stOk [])) ∧
    (Posted s mb 0x0041 (· == 2) →
      (mbArg s mb 0 1 = 0 → ∃ t, exec (.checkpoint mb) s = .next t ∧ getB t (modReg oModCkptCtl) 0 = true ∧
        getF t (modReg oModCkptCtl) 15 8 = mbArg s mb 1 1 ∧ Responded s t mb stOk []) ∧
      (mbArg s mb 0 1 = 1 → ∃ t, exec (.checkpoint mb) s = .next t ∧ getB t (modReg oModCkptStatus) 63 = false ∧
        getReg t (modReg oModCkptCtl) = getReg s (modReg oModCkptCtl) ∧ Responded s t mb stOk [])) ∧
    (Posted s mb 0x0050 (· == 4) → inBrace s = false → mbArg s mb 0 4 + 1 = nextSeq s → fieldFenced s (logAddr s / fieldBytes) = false →
      let b := rdBytes s (logAddr s + 32 * (mbArg s mb 0 4 % 65536)) 32
      isCont b = false →
      ∃ t, exec (.faults mb) s = .next t ∧ t.boot.faultsRead = nextSeq s ∧
        Responded s t mb stOk (natLe 4 (mbArg s mb 0 4) ++ natLe 1 1 ++ natLe 3 0 ++ b)) ∧
    (Posted s mb 0x0051 (· == 0) → ∃ t, exec (.telemetry mb) s = .next t ∧ (∀ c, getCore t c = getCore s c) ∧ Responded s t mb stOk (telemetry s))

/-- IMAGE_COMMIT, UPDATE, UPDATE_HANDOVER, UPDATE_FAILBACK, LOAD, START and STOP (R522 to R530, R570): an image that reads the version
that the old image writes reads its handover record, and takes over by it (R529); the bodies of the sections are a free function (log 108). -/
def Obligations.ProgramCommands : Prop :=
  ∀ (s : State) (mb : Fin 4), inBrace s = false →
    (Posted s mb 0x0010 (· == 16) → stageOf s = 3 → stagedRefusal s (mbArg s mb 0 8) (mbArg s mb 8 8) = none → s.boot.slots.length = 2 →
      let img := rtOf (rdBytes s (mbArg s mb 0 8) (mbArg s mb 8 8))
      ((∀ r ∈ s.boot.flog, r.unreported = false) →
        ∃ t, exec (.imageCommit mb true) s = .next t ∧ stageOf t = 5 ∧ rtVersion t = img.version ∧ rtImage t = some img ∧
          Responded s t mb stOk (natLe 4 img.version)) ∧
      (∃ t, exec (.imageCommit mb false) s = .next t ∧ stageOf t = 4 ∧ t.boot.starting = some (s.ns, mb.val) ∧ rtImage t = some img ∧
        SameMem s t)) ∧
    (Posted s mb 0x0011 (· == 16) → controlBusy s = false → stagedRefusal s (mbArg s mb 0 8) (mbArg s mb 8 8) = none →
      let img := rtOf (rdBytes s (mbArg s mb 0 8) (mbArg s mb 8 8))
      let w := match rtImage s with | some i => i.writes | none => 0
      uncovered s img.feats = none → img.reads ≤ w → w ≤ img.writes →
      ∃ t, exec (.updateI mb) s = .next t ∧ t.boot.update = some ⟨mb, s.ns, false, false⟩ ∧ SameMem s t ∧
        t.boot.slots = s.boot.slots.set (1 - rtSlot s) (some img) ∧
        (updateIdle s = true → t.clk.kind = 2 ∧ t.clocksOn = false) ∧
        (updateIdle s = false → getB t (modReg oClkHushCtl) 0 = true ∧ updState t = 2)) ∧
    (∀ a, s.boot.update = some a → a.mb < 4 → s.boot.power = true → a.ready = true → (updState s = 2 ∨ updState s = 3) →
      let u := if updState s = 2 then handOver s else s
      (recordReadable u = true → ∀ us : Fin 2001, ∃ t, exec (.updateHandover (some us)) s = .next t ∧ updState t = 4 ∧ t.boot.update = none ∧
        t.boot.takeover = none ∧ t.boot.handAccepted = true ∧ rtSlot t = 1 - rtSlot s ∧ getF t (modReg oCarUpdateStatus) 31 16 = us.val) ∧
      (recordReadable u = false → ∀ us, exec (.updateHandover (some us)) s = .next u) ∧
      exec (.updateHandover none) s = .next u ∧ updState u = 3 ∧ u.boot.update = some a ∧ SameMem s u ∧
      (updState s = 2 → u.boot.takeover = some s.ns ∧ u.boot.handValid = true ∧ u.boot.handAccepted = false ∧
        (∀ i w, s.boot.slots.getD (1 - rtSlot s) none = some i → rtImage s = some w → w.writes < 256 → i.reads ≤ w.writes → w.writes ≤ i.writes →
          recordReadable u = true ∧ readHandover i u.boot.handover = some (handoverSections s)))) ∧
    (∀ q unreadable, s.boot.takeover = some q → (∀ a, s.boot.update = some a → a.mb < 4) →
      (unreadable = true ∨ recordReadable s = false ∨ q + 2000000 ≤ s.ns) →
      ∃ t, exec (.updateFailback unreadable) s = .next t ∧ updState t = 5 ∧ t.boot.update = none ∧ t.boot.takeover = none ∧ rtSlot t = rtSlot s ∧
        getF t (modReg oCarUpdateStatus) 47 32 = (getF s (modReg oCarUpdateStatus) 47 32 + 1) % 65536) ∧
    (∀ q, s.boot.takeover = some q → recordReadable s = true → s.ns < q + 2000000 → exec (.updateFailback false) s = .next s) ∧
    (Posted s mb 0x0012 (· == 36) → s.clk.kind ≠ 1 → s.clk.kind ≠ 2 → mbArg s mb 32 4 < 4 → controlBusy s = false →
      let q : LoadReq := ⟨mbArg s mb 0 8, mbArg s mb 8 8, mbArg s mb 16 8, mbArg s mb 24 8, bitOf (mbArg s mb 32 4) 0, bitOf (mbArg s mb 32 4) 1⟩
      let l := rdBytes s q.addr q.len
      loadRange s (ownerOf s mb) q = stOk → loadBlocked s q = none →
      (∀ r d more, loadFail s l q.twin = some (r, d, more) →
        ∃ t, exec (.loadI mb) s = .next t ∧ Responded s t mb stRefused (natLe 2 r ++ natLe 2 d ++ more) ∧ t.boot.prog = s.boot.prog) ∧
      (∀ t1 id, loadFail s l q.twin = none → loadProgram (fwRead s q.addr q.len) q l = .ok (t1, id) →
        ∃ t p, exec (.loadI mb) s = .next t ∧ t.boot.prog = some p ∧ p.id = (match s.boot.prog with | some p => p.id | none => s.boot.nextId) ∧
          p.addr = q.addr ∧ p.image = hdr l 48 8 ∧ p.fields = targetFields l ∧ t.clk.kind = 2 ∧ t.clocksOn = false) ∧
      (∀ f, loadFail s l q.twin = none → loadProgram (fwRead s q.addr q.len) q l = .error f →
        ∃ t, exec (.loadI mb) s = .next t ∧ Responded s t mb stRefused (natLe 2 7 ++ natLe 2 f) ∧ t.boot.prog = s.boot.prog)) ∧
    (∀ p, s.boot.prog = some p → controlBusy s = false → p.id = mbArg s mb 0 4 →
      (Posted s mb 0x0013 (fun n => n == 4 || n == 12) → s.clk.kind ≠ 1 → s.clk.kind ≠ 2 → p.fields.find? (fieldFenced s) = none →
        allReset s = true →
        let ts := if mbLen s mb = 12 then mbArg s mb 4 8 else quartz s + 10000000
        quartz s + 5000000 ≤ ts →
        ∃ t, exec (.startI mb) s = .next t ∧ t.clk.armed = some ts ∧ paceOf t = 4 ∧ getB t (modReg oQtzCtl) 9 = false ∧
          Responded s t mb stOk [] ∧
          ((p.entries.map (·.1)).Nodup → ∀ e ∈ p.entries, coreFenced s e.1 = false → (getCore t e.1).armed = some (e.2 % 16))) ∧
      (Posted s mb 0x0013 (· == 4) →
        ∃ t, exec (.stopI mb) s = .next t ∧ t.boot.stop = some ⟨mb, s.ns, false, false⟩ ∧ getB t (modReg oClkHushCtl) 0 = true ∧ SameMem s t ∧
          ∀ c, getCore t c = getCore s c))

/-- INPUT_CLASSIFIED, DIP, BRACE_EXIT, SHUTDOWN, THERMAL_TRIP, SHAPER_TICK, RAMP_RELEASE, PWR_GOV_REQ, THERMAL_LOOP, ENERGY_TICK, ENERGY_LOG,
ENERGY_SCALE, GAUGE_CALIBRATION and DISCHARGE (R481 to R505): above 54.7 V the charge path opens, and below the charge target the store
is charged (R481). The alert bits of SMBus and what is measured, the lock and the
rails among it (log 70, log 73), are the model's. -/
def Obligations.PowerManagement : Prop :=
  ∀ (s : State),
    (∀ low high, ∃ t, exec (.inputClassified low high) s = .next t ∧ t = { s with smb := t.smb, msix := t.msix } ∧
      bitOf t.smb.alert 0 = low ∧ bitOf t.smb.alert 1 = high) ∧
    (∀ vin : BitVec 16, s.boot.power = true → inBrace s = false → (vin.toNat < 46000 ∨ 63000 < vin.toNat) →
      ∃ t, exec (.dip vin) s = .next t ∧ SameMem s t ∧ (∀ c, getCore t c = getCore s c) ∧ t.pwr.brace = some s.ns ∧ t.pwr.charging = false ∧ inBrace t = true ∧
        bitOf t.smb.alert 2 = true ∧ StopCause.brace ∈ t.clk.causes ∧ (s.clk.kind = 0 → t.clocksOn = false ∧ t.clk.kind = 3) ∧
        getF t (modReg oPwrBraceStatus) 63 48 = (getF s (modReg oPwrBraceStatus) 63 48 + 1) % 65536 ∧
        getF t (modReg oPwrBraceStatus) 15 0 = min 0xFFFF (usable s / 1000) ∧ getF t (modReg oPwrStatus) 2 0 = 1 ∧ CarRecord s t .powerBrace 5) ∧
    (∀ q, s.pwr.brace = some q → s.pwr.dipOver = false →
      (∃ t, exec .braceExit s = .next t ∧ t = { s with regs := t.regs, pwr := { s.pwr with dipOver := true, refreshOut := true } } ∧
        getF t (modReg oPwrBraceStatus) 47 32 = (s.ns - q + 10000) / 1000000 % 65536 ∧ getF t (modReg oPwrStatus) 2 0 = 2 ∧
        SameRegsBut s t (fun r => r = modReg oPwrBraceStatus ∨ r = modReg oPwrStatus)) ∧
      (usable s = 0 → ∃ t, exec .shutdown s = .next t ∧ PoweredOff s t 2) ∧
      (0 < usable s → q + 1000000 * getF s (modReg oPwrBraceCtl) 7 0 ≤ s.ns → ∃ t, exec .shutdown s = .next t ∧ PoweredOff s t 1)) ∧
    (∀ (f : FieldId) (temp : BitVec 16), s.boot.power = true → 11500 ≤ temp.toInt →
      ∃ t, exec (.thermalTrip f temp) s = .next t ∧ PoweredOff s t 3) ∧
    (∀ x : PowerSample, s.boot.power = true →
      ∃ t, exec (.shaperTick x) s = .next t ∧ SameMem s t ∧ (∀ c, getCore t c = getCore s c) ∧
        (getReg t (modReg oPwrInput)).toNat = x.vin.toNat * 2 ^ 48 + x.iin.toNat * 2 ^ 32 + x.pin.toNat * 2 ^ 16 ∧
        getF t (modReg oPwrStatus) 63 48 = x.mean.toNat ∧ getF t (modReg oPwrStatus) 47 32 = x.mean100.toNat ∧
        getF t (modReg oPwrHoldup) 15 0 = x.vStore.toNat ∧ t.pwr.pathOpen = decide (5470 < x.vStore.toNat) ∧
        t.clk.unready = !x.ready ∧
        (t.pwr.charging = true → x.vStore.toNat < 5400) ∧
        (getReg t (modReg oPwrEnergyIn)).toNat = ((getReg s (modReg oPwrEnergyIn)).toNat + x.energy) % 2 ^ 64 ∧
        (s.pwr.limit = true → paceOf t = 4) ∧ (paceOf s ≤ 4 → paceOf t ≤ 4) ∧
        ∀ f, f < 64 → fieldFenced s f = false → getF t (fieldReg f oFldPwrStatus) 2 0 ≤ 4 ∧
          (getF s (modReg oPwrCapCtl) 14 0 ≤ x.mean.toNat → getF t (fieldReg f oFldPwrStatus) 2 0 = 0)) ∧
    (∀ q, s.pwr.ramp = some q → s.clk.kind = 3 → s.clk.causes = [] → s.clk.aborting = none →
      q + 1000000 * getF s (modReg oPwrShapeCtl) 15 0 ≤ s.ns →
      ((∀ a, s.boot.update = some a → a.waits = false) →
        ∃ t, exec .rampRelease s = .next t ∧ SameMem s t ∧ t.pwr.ramp = none ∧ t.clk.kind = 0 ∧ t.clocksOn = s.clk.started ∧ paceOf t = 4 ∧
          ∀ c, getCore t c = { getCore s c with hpHold := false }) ∧
      (∀ a, s.boot.update = some a → a.waits = true →
        ∃ t, exec .rampRelease s = .next t ∧ t.pwr.ramp = none ∧ t.boot.update = some { a with waits := false, since := s.ns })) ∧
    (∀ m (v : W64), Admitted s m true (modReg oPwrGovReq) 8 →
      exec (.pwrGovReq m v) s = .next { s with clk := { s.clk with govReq := v.getLsbD 0 || s.clk.govReq }, reply := some ⟨.ok, []⟩ }) ∧
    (∀ temps tIn tOut,
      (temps.length ≠ 64 → exec (.thermalLoop temps tIn tOut) s = .fault .illFormed) ∧
      (temps.length = 64 → runtimeOn s = true →
        ∃ t, exec (.thermalLoop temps tIn tOut) s = .next t ∧ t.pwr.tIn = tIn.toInt ∧ t.pwr.tOut = tOut.toInt ∧
          (∀ f, f < 64 → getF t (fieldReg f oFldPwrStatus) 63 48 = (temps.getD f 0#16).toNat) ∧
          (getB t (modReg oPwrThermStatus) 0 = true ↔ ∃ x ∈ temps, (100 * getF s (modReg oPwrThermCtl) 7 0 : Nat) ≤ x.toInt) ∧
          ∀ f q, f < 64 → s.pwr.hot.find? (·.1 == f) = some (f, q) → q + 100000000 ≤ s.ns → fieldFenced s f = false →
            (100 * getF s (modReg oPwrThermCtl) 15 8 : Nat) ≤ (temps.getD f 0#16).toInt →
            fieldFenced t f = true ∧ getF t (fieldReg f oFldFenceStatus) 15 8 = 5)) ∧
    (∀ f : FieldId, (BitVec.ofNat 16 (getF s (fieldReg f oFldPwrStatus) 63 48)).toInt < 4000 →
      ∃ t, exec (.energyTick f) s = .next t ∧ t = { s with regs := t.regs, fields := t.fields } ∧ SameFieldsBut s t f ∧
        (getField t f).actSeen = (getField s f).acts ∧ (getField t f).acts = (getField s f).acts ∧
        ∀ k, k < 4 →
          let e := smGet 0 k (getField s f).eFrac + taskEnergy s f (getField s f) (multM s) k
          (getReg t (fieldReg f (oFldEnergyTask + 8 * k))).toNat = ((getReg s (fieldReg f (oFldEnergyTask + 8 * k))).toNat + e / 36864000) % 2 ^ 64 ∧
          smGet 0 k (getField t f).eFrac = e % 36864000) ∧
    (runtimeOn s = true →
      (∀ d rest, s.pwr.due = d :: rest →
        ∃ t, exec .energyLog s = .next t ∧ t.pwr.due = rest ∧
          let f := getF s (modReg oPwrElog) 47 0 / 0x400000000
          getF t (modReg oPwrElog) 63 48 = (getF s (modReg oPwrElog) 63 48 + 1) % 65536 ∧
          SameRegsBut s t (fun r => r = modReg oPwrElog ∨ ∃ g, (g = f ∨ g = f + 1) ∧
            (r = clsCount g 1 ∨ r = clsWait g 1 ∨ r = fieldReg g oGwFenceCount)) ∧
          SameMemOutside s t (getF s (modReg oPwrElog) 47 0 + 64 * getF s (modReg oPwrElog) 63 48) 64) ∧
      (let inMj := (getReg s (modReg oPwrEnergyIn)).toNat
       let sum := ((List.range 64).map fun f => (getReg s (fieldReg f oFldEnergy)).toNat).sum
       let d := sum - s.pwr.scaleFrom.2
       exec .energyScale s = .next { s with pwr := { s.pwr with
         scaleFrom := (inMj, sum), scale := if d = 0 then s.pwr.scale else (inMj - s.pwr.scaleFrom.1) * 6553600000000 / (d * 104) } }) ∧
      (∀ charge : BitVec 16,
        ∃ t, exec (.gaugeCalibration charge) s = .next t ∧ t = { s with regs := t.regs, pwr := t.pwr } ∧
          t.pwr = { s.pwr with gauge := (100 * charge.toNat * storeV s * storeV s / 2000000 : Nat) } ∧
          getF t (modReg oPwrHoldupCal) 31 16 = charge.toNat ∧
          getF t (modReg oPwrHoldupCal) 15 0 = (getF s (modReg oPwrHoldupCal) 15 0 + 1) % 65536)) ∧
    (∀ vStore : BitVec 16,
      (∃ t, exec (.discharge false vStore) s = .next t ∧ t = { s with regs := t.regs, pwr := t.pwr } ∧ t.pwr.discharge = true ∧
        t.pwr.pathOpen = decide (5470 < vStore.toNat) ∧
        getF t (modReg oPwrHoldup) 15 0 = vStore.toNat ∧
        (s.boot.power = false → getReg t (modReg oPwrShutdown) = 0#64 ∧ getReg t (modReg oPwrInput) = 0#64)) ∧
      (let e := max s.pwr.gauge.toNat (capEnergy (cHigh s) vStore.toNat)
       ∃ t, exec (.discharge true vStore) s = .next t ∧ t = { s with regs := t.regs, pwr := t.pwr } ∧
        getF t (modReg oPwrHoldup) 15 0 = vStore.toNat ∧ t.pwr.pathOpen = decide (5470 < vStore.toNat) ∧
        (vStore.toNat < 5400 → s.pwr.brace = none → s.pwr.gauge < 59500000 → capEnergy (cHigh s) (vStore.toNat + 1) ≤ 59500000 → t.pwr.charging = true) ∧
        (t.pwr.charging = true → vStore.toNat < 5400 ∧ capEnergy (cHigh s) vStore.toNat ≤ 59500000) ∧
        (s.pwr.discharge = false → t.pwr.discharge = decide (60000000 < e)) ∧
        (s.pwr.discharge = true → s.pwr.dischAbs = false → t.pwr.discharge = decide (59000000 ≤ e)) ∧
        (s.pwr.discharge = true → s.pwr.dischAbs = true → t.pwr.discharge = decide (500000 ≤ e))))

/-- The SMBus commands IDENT to ALERT_MASK and SMBUS_REFRESH (R474): a transaction with a valid PEC is answered, one without is NACKed. -/
def Obligations.SmbusReads : Prop :=
  ∀ (s : State), s.boot.power = true →
    (∀ r ∈ smbReads, exec (r.cmd true) s = .next { s with reply := some ⟨.ok, natLe r.n (r.val s)⟩ } ∧
      exec (r.cmd false) s = .next { s with reply := some ⟨.nack, []⟩ }) ∧
    (let id := getReg s (modReg oModIdent)
     exec (.ident true) s = .next { s with reply := some ⟨.ok, natLe 2 (bitsOf id.toNat 63 48) ++ natLe 1 (bitsOf id.toNat 47 44) ++
       natLe 1 (bitsOf id.toNat 43 40) ++ natLe 8 (getReg s (modReg oLnkSelfId)).toNat⟩ }) ∧
    exec (.ident false) s = .next { s with reply := some ⟨.nack, []⟩ } ∧
    (∃ b : Byte, exec (.stateI true) s = .next { s with reply := some ⟨.ok, [b]⟩ } ∧
      (b.getLsbD 0 = true ↔ stageOf s = 5) ∧ (b.getLsbD 1 = true ↔ programRuns s = true) ∧ (b.getLsbD 2 = true ↔ s.pwr.brace ≠ none) ∧
      (b.getLsbD 3 = true ↔ getB s (modReg oPwrThermStatus) 0 = true) ∧ (b.getLsbD 4 = true ↔ getReg s (modReg oModFieldFenced) ≠ 0#64)) ∧
    exec (.stateI false) s = .next { s with reply := some ⟨.nack, []⟩ } ∧
    (∀ v : BitVec 16,
      (∃ t, exec (.alertClear true v) s = .next t ∧ t = { s with smb := { s.smb with alert := t.smb.alert }, reply := some ⟨.ok, []⟩ } ∧
        ∀ i, i < 16 → bitOf t.smb.alert i = (bitOf s.smb.alert i && !v.getLsbD i)) ∧
      exec (.alertClear false v) s = .next { s with reply := some ⟨.nack, []⟩ } ∧
      exec (.alertMask true (some v)) s = .next { s with smb := { s.smb with mask := v.toNat }, reply := some ⟨.ok, []⟩ } ∧
      exec (.alertMask false (some v)) s = .next { s with reply := some ⟨.nack, []⟩ }) ∧
    exec (.alertMask true none) s = .next { s with reply := some ⟨.ok, natLe 2 s.smb.mask⟩ } ∧
    exec (.alertMask false none) s = .next { s with reply := some ⟨.nack, []⟩ } ∧
    (stageOf s ≠ 0 → stageOf s ≠ 7 →
      ∃ t, exec .smbusRefresh s = .next t ∧ t = { s with smb := t.smb } ∧ t.smb.alert = s.smb.alert ∧ t.smb.mask = s.smb.mask ∧
        t.smb.pcap = getF s (modReg oPwrCapCtl) 14 0 ∧
        (s.pwr.seenP = true → t.smb.vin = getF s (modReg oPwrInput) 63 48 ∧ t.smb.iin = getF s (modReg oPwrInput) 47 32 ∧
          t.smb.pin = getF s (modReg oPwrInput) 31 16 ∧ t.smb.energy = (getReg s (modReg oPwrEnergyIn)).toNat / 1000 ∧
          t.smb.holdup = getF s (modReg oPwrHoldup) 47 32) ∧
        (s.pwr.seenT = true → t.smb.tIn = (BitVec.ofInt 16 s.pwr.tIn).toNat ∧ t.smb.tOut = (BitVec.ofInt 16 s.pwr.tOut).toNat ∧
          t.smb.tMax = getF s (modReg oPwrThermStatus) 63 48))

/-- MATE_DETECT, CAR_WDOG_KICK, WATCHDOG_EXPIRED, CORE_RESET, MODULE_RESET, POWER_ON, ROM_BOOT, WAFER_BRINGUP, RUNTIME_START_TIMEOUT,
FAULT_COLLECT, FAULT_POLL and TRACE_WRITE (R511 to R522, R537 to R542, R550, R586); and how the runtime image starts, is replaced and
replaces again: IMAGE_COMMIT, UPDATE, UPDATE_HANDOVER and UPDATE_FAILBACK (R522, R528, R530). -/
def Obligations.BootResetsAndFaults : Prop :=
  ∀ (s : State),
    (∃ t, exec (.mateDetect true) s = .next t ∧ t = { s with boot := { s.boot with mated := true } }) ∧
    (s.boot.power = true → inBrace s = false →
      ∃ t, exec (.mateDetect false) s = .next t ∧ t.boot.mated = false ∧ t.pwr.brace = some s.ns ∧ inBrace t = true) ∧
    (∀ m (n : Fin 5) (v : W64), Admitted s m true (modReg (oCarWdogKick + 0x10 * n.val)) 8 → s.boot.dogs.length = 5 → v.getLsbD 0 = true →
      s.boot.dogs.getD n none ≠ none →
      ∃ t, exec (.carWdogKick m n v) s = .next t ∧ Answered t .ok ∧ SameRegs s t ∧
        t.boot.dogs = if dogOwner n m then s.boot.dogs.set n (some (s.ns + 1000000 * getF s (modReg (oCarWdogCtl + 0x10 * n.val)) 15 0))
          else s.boot.dogs) ∧
    (∀ (n : Fin 5) q, s.boot.power = true → s.boot.dogs.getD n none = some q → q ≤ s.ns →
      (n.val = 0 → ∃ t, exec (.watchdogExpired n) s = .next t ∧ ModuleWasReset s t 2 ∧
        getF t (modReg oCarWdogCtl) 47 32 = (getF s (modReg oCarWdogCtl) 47 32 + 1) % 65536) ∧
      (n.val ≠ 0 → updState s ≠ 3 → ∃ t, exec (.watchdogExpired n) s = .next t ∧ ModuleWasReset s t 3 ∧
        getF t (modReg (oCarWdogCtl + 0x10 * n.val)) 47 32 = (getF s (modReg (oCarWdogCtl + 0x10 * n.val)) 47 32 + 1) % 65536) ∧
      (n.val ≠ 0 → updState s = 3 → ∃ t, exec (.watchdogExpired n) s = .next t ∧ updState t = 5 ∧
        getReg t (modReg oCarResetInfo) = getReg s (modReg oCarResetInfo) ∧ ∀ c, getCore t c = getCore s c)) ∧
    (∀ m (v : W64), Admitted s m true (modReg oCarCoreReset) 8 →
      (v.getLsbD 0 = true →
        ∃ t, exec (.coreReset m v) s = .next t ∧ Answered t .ok ∧ getB t (modReg oCarCoreReset) 1 = true ∧ t.gar = [] ∧
          t.clk.started = false ∧ t.clk.armed = none ∧
          (∀ c, coreFenced s c = false → (getCore t c).mode = .reset ∧ (getCore t c).cmds = [] ∧ (getCore t c).sendBuf = []) ∧
          ∀ k, cluFenced s k = false → (getClu t k).mode = .reset ∧ (getClu t k).regs = (getClu s k).regs) ∧
      (v.getLsbD 0 = false → exec (.coreReset m v) s = .next { s with reply := some ⟨.ok, []⟩ })) ∧
    (∀ m (v : W64), Admitted s m true (modReg oHstResetCtl) 8 →
      (v.toNat % 65536 = 0xA5C3 → ∃ t, exec (.moduleReset m v) s = .next t ∧ Answered t .ok ∧ ModuleWasReset s t 1 ∧
        ∀ a, rdByte t a = if a < 0x10000000000 then rdByte s a else 0#8) ∧
      (v.toNat % 65536 ≠ 0xA5C3 → exec (.moduleReset m v) s = .next { s with reply := some ⟨.ok, []⟩ })) ∧
    (s.boot.power = false → s.boot.mated = true →
      ∃ t, exec .powerOn s = .next t ∧ t.boot.power = true ∧ stageOf t = 0 ∧ t.mem = [] ∧ t.cores = [] ∧ t.pending = s.pending ∧
        t.boot.flash = s.boot.flash ∧ getReg t (modReg oPwrShutdown) = getReg s (modReg oPwrShutdown)) ∧
    (s.boot.power = true → s.boot.flashHold = false → stageOf s = 0 → s.boot.dogs.length = 5 →
      ∃ t, exec .romBoot s = .next t ∧ SameMem s t ∧
        t.boot.dogs.getD 0 none = some (s.ns + 1000000 * getF s (modReg oCarWdogCtl) 15 0) ∧
        (slotValid s 0 = true → stageOf t = 1 ∧ getB t (modReg oCarBootStatus) 8 = false) ∧
        (slotValid s 0 = false → slotValid s 0x40000 = true → stageOf t = 1 ∧ getB t (modReg oCarBootStatus) 8 = true) ∧
        (slotValid s 0 = false → slotValid s 0x40000 = false → stageOf t = 7 ∧ getF t (modReg oCarBootStatus) 63 48 = 1)) ∧
    (∀ x : Bringup, s.boot.power = true → stageOf s = 1 →
      (configValid s = false → ∃ t, exec (.waferBringup x) s = .next t ∧ t = { s with regs := t.regs } ∧ stageOf t = 7 ∧
        getF t (modReg oCarBootStatus) 63 48 = 2 ∧ SameRegsBut s t (· = modReg oCarBootStatus)) ∧
      (configValid s = true → x.charged = false → ∃ t, exec (.waferBringup x) s = .next t ∧ t = { s with regs := t.regs } ∧ stageOf t = 7 ∧
        getF t (modReg oCarBootStatus) 63 48 = 3 ∧ SameRegsBut s t (· = modReg oCarBootStatus)) ∧
      (configValid s = true → x.charged = true → ∃ t, exec (.waferBringup x) s = .next t ∧ stageOf t = 3 ∧
        getReg t (modReg oHstAper) = 0#64)) ∧
    (∀ q mb, s.boot.starting = some (q, mb) → q + 100000000 ≤ s.ns → ∃ t, exec .runtimeStartTimeout s = .next t ∧ ModuleWasReset s t 5) ∧
    (∀ (f : FieldId) h more rest, s.boot.power = true → headGroup (getField s f).faultQ = some (h, more, rest) →
      (suppressible h = false → ∃ t, exec (.faultCollect (some f) true) s = .next t ∧ t = { s with fields := t.fields, carQ := s.carQ ++ h :: more } ∧
        SameFieldsBut s t f ∧ getField t f = { getField s f with faultQ := rest }) ∧
      (fieldFenced s f = false → h.cont = false → ((getField s f).faultQ.filter fun q => !q.cont).length ≤ 64 →
        ∃ t, exec (.faultCollect (some f) false) s = .next t ∧ fieldFenced t f = true ∧
        getF t (fieldReg f oFldFenceStatus) 15 8 = 6 ∧
        getF t (modReg oModFaultLost) 63 32 = (getF s (modReg oModFaultLost) 63 32 + 1) % 2 ^ 32 ∧ CarRecord s t .faultPath 2)) ∧
    (∀ h rest, runtimeOn s = true → headGroup s.carQ = some (h, [], rest) →
      let a := logAddr s + 32 * (nextSeq s % 65536)
      a % 32 = 0 → fieldFenced s (a / 0x400000000) = false → poisoned s (a / 64 * 64) = false →
      ∃ t, exec (.faultCollect none true) s = .next t ∧ t.carQ = rest ∧ rdBytes t a 32 = recBytes h ∧ SameMemOutside s t a 32 ∧
        nextSeq t = (nextSeq s + 1) % 2 ^ 32 ∧ (∀ c, getCore t c = getCore s c)) ∧
    (∀ f : FieldId, s.boot.power = true →
      (fieldFenced s f = false → ∃ t, exec (.faultPoll f false) s = .next t ∧ fieldFenced t f = true ∧
        getF t (fieldReg f oFldFenceStatus) 15 8 = 6 ∧ CarRecord s t .faultPath 2) ∧
      (∃ t, exec (.faultPoll f true) s = .next t ∧ t = { s with boot := t.boot, msix := t.msix })) ∧
    (∀ f : FieldId, (getField s f).traceQ ≠ [] → fieldFenced s f = false → inBrace s = false → getB s (fieldReg f oGwStatus) 44 = false →
      getB s (fieldReg f oFldTraceStatus) 62 = false → ringRecords s f ≠ 0 →
      ∃ t, exec (.traceWrite f) s = .next t ∧ (∀ c, getCore t c = getCore s c) ∧
        (getField t f).traceQ = (getField s f).traceQ.drop (2 - getF s (fieldReg f oFldTraceStatus) 31 0 % 2)) ∧
    (∀ mb : Fin 4, inBrace s = false → s.boot.slots.length = 2 → stagedRefusal s (mbArg s mb 0 8) (mbArg s mb 8 8) = none →
      let img := rtOf (rdBytes s (mbArg s mb 0 8) (mbArg s mb 8 8))
      (Posted s mb 0x0010 (· == 16) → stageOf s = 3 → ∃ t, exec (.imageCommit mb true) s = .next t ∧ stageOf t = 5 ∧ rtVersion t = img.version) ∧
      (Posted s mb 0x0011 (· == 16) → controlBusy s = false → uncovered s img.feats = none →
        (∀ w, rtImage s = some w → img.reads ≤ w.writes ∧ w.writes ≤ img.writes) → (rtImage s = none → img.reads = 0) →
        ∃ t, exec (.updateI mb) s = .next t ∧ t.boot.update = some ⟨mb, s.ns, false, false⟩ ∧ updState t = 2)) ∧
    (∀ a, s.boot.update = some a → a.mb < 4 → s.boot.power = true → a.ready = true → updState s = 3 →
      (recordReadable s = true → ∃ t, exec (.updateHandover (some 0)) s = .next t ∧ updState t = 4 ∧ rtSlot t = 1 - rtSlot s) ∧
      (∀ q, s.boot.takeover = some q → ∃ t, exec (.updateFailback true) s = .next t ∧ updState t = 5 ∧ rtSlot t = rtSlot s))

/-- REGISTER_WRITE, IMEM_WRITE, ACC_WRITE, VTILE_WRITE, STEWARD_MEM_WRITE, CORE_CTL, CLU_CTL and DEBUG_ACCESS, and the JTAG instructions
(R12, R15, R67, R69, R70, R144, R187, R222, R223, R271, R552, R553): what an admitted write stores, where it is refused. -/
def Obligations.RegisterAndDebugAccesses : Prop :=
  ∀ (s : State) (m : Master),
    (∀ (a : Fin 0x1000000000000) (v : W64) p d, Admitted s m true a.val 8 → decodeAddr a.val = some p → regionOf p = some .reg →
      regDescOf a.val = some d →
      let u := tidy a.val v
      ownWrite s m a.val u = none →
      (rejects s a.val u = true → ∃ t, exec (.registerWrite m a v) s = .next t ∧ WriteRefused s t) ∧
      (rejects s a.val u = false → rwhMask a.val = 0 →
        ∃ t, exec (.registerWrite m a v) s = .next t ∧ Answered t .ok ∧ SameMem s t ∧ t.shadow = s.shadow ∧
          (let rw := BitVec.ofNat 64 (accMask a.val .rw)
           getReg t a.val = ((getReg s a.val &&& ~~~rw) ||| (u &&& rw)) &&& ~~~(u &&& BitVec.ofNat 64 (accMask a.val .w1c))) ∧
          (∀ c, (∀ n, n < 8 → a.val ≠ coreReg c (oCoreCtrval + 8 * n)) → (∀ r, r < 4 → a.val ≠ coreReg c (oCoreRing + 8 * r)) →
            getCore t c = getCore s c) ∧
          (∀ (c : CoreId) n, n < 8 → a.val = coreReg c (oCoreCtrval + 8 * n) → ∀ i, i < 4 → (getCore t c).net.getD (4 * n + i) 0 = 0) ∧
          ∀ (c : CoreId) r, r < 4 → a.val = coreReg c (oCoreRing + 8 * r) → getB s a.val 19 = false → u.getLsbD 19 = true → nextRingSlot t c r = 0) ∧
      (rejects s a.val u = false → rwhMask a.val ≠ 0 → atOnce s a.val = false →
        let k := BitVec.ofNat 64 (rwhMask a.val)
        ∃ t, exec (.registerWrite m a v) s = .next t ∧ Answered t .ok ∧ SameMem s t ∧
          t.shadow = smPut (getReg s a.val) a.val ((getReg s a.val &&& ~~~k) ||| (u &&& k)) s.shadow)) ∧
    (∀ (c : CoreId) (off : Fin 0x2000) data, Admitted s m true (coreBase c + 0xC000 + off.val) data.length →
      (coreOpen s c = true → releasedNow s c = false →
        ∃ t, exec (.imemWrite m c off data) s = .next t ∧ StoreWritten s t (coreBase c + 0xC000 + off.val) data) ∧
      (coreOpen s c = false ∨ releasedNow s c = true →
        ∃ t, exec (.imemWrite m c off data) s = .next t ∧ StoreRefused s t (coreReg c oCoreRefusals))) ∧
    (∀ (c : CoreId) (off : Fin 0x1000) data, Admitted s m true (coreBase c + 0x14000 + off.val) data.length →
      (coreOpen s c = true → ∃ t, exec (.vtileWrite m c off data) s = .next t ∧ StoreWritten s t (coreBase c + 0x14000 + off.val) data) ∧
      (coreOpen s c = false → ∃ t, exec (.vtileWrite m c off data) s = .next t ∧ StoreRefused s t (coreReg c oCoreRefusals))) ∧
    (∀ (k : CluId) (off : Fin 0x4000) data, Admitted s m true (stewMem k off.val) data.length →
      (stewOpen s k = true → ∃ t, exec (.stewardMemWrite m k off data) s = .next t ∧ StoreWritten s t (stewMem k off.val) data) ∧
      (stewOpen s k = false → ∃ t, exec (.stewardMemWrite m k off data) s = .next t ∧ StoreRefused s t (cluReg k oCluRefusals))) ∧
    (∀ (c : CoreId) (off : Fin 0x4000) data, Admitted s m true (coreBase c + 0x10000 + off.val) data.length →
      (coreOpen s c = true →
        ∃ t, exec (.accWrite m c off data) s = .next t ∧ Answered t .ok ∧ SameMemOutside s t (coreBase c + 0x10000 + off.val) data.length ∧
          t = { s with mem := t.mem, reply := t.reply } ∧
          ∀ i, i < data.length →
            let j := (off.val + i) % 16
            let k : Byte := if accExact s c (off.val / 256) then (if j < 12 then 0xFF#8 else if j = 12 then 7#8 else 0#8)
              else if j < 4 then 0xFF#8 else 0#8
            rdByte t (coreBase c + 0x10000 + off.val + i) = (rdByte s (coreBase c + 0x10000 + off.val + i) &&& ~~~k) ||| (data.getD i 0#8 &&& k)) ∧
      (coreOpen s c = false → ∃ t, exec (.accWrite m c off data) s = .next t ∧ StoreRefused s t (coreReg c oCoreRefusals))) ∧
    (∀ (c : CoreId) (v : W64), Admitted s m true (coreReg c oCoreCtl) 8 → v.getLsbD 0 = true →
      (effMode s c = 0 ∨ effMode s c = 4 →
        ∃ t, exec (.coreCtl m c v) s = .next t ∧ t = { s with cores := t.cores, reply := some ⟨.ok, []⟩ } ∧ SameCoresBut s t c ∧
          getCore t c = { getCore s c with armed := some (v.toNat / 256 % 16) }) ∧
      (effMode s c ≠ 0 → effMode s c ≠ 4 →
        ∃ t, exec (.coreCtl m c v) s = .next t ∧ WriteRefused s t ∧
          getF t (coreReg c oCoreRefusals) 63 32 = (getF s (coreReg c oCoreRefusals) 63 32 + 1) % 2 ^ 32)) ∧
    (∀ (k : CluId) (v : W64), Admitted s m true (cluReg k oCluCtl) 8 → v.getLsbD 0 = true →
      (s.clk.kind = 0 → ((getClu s k).mode = .reset ∨ (getClu s k).mode = .halted) →
        ∃ t, exec (.cluCtl m k v) s = .next t ∧ t = { s with clus := t.clus, reply := some ⟨.ok, []⟩ } ∧ SameClusBut s t k ∧
          getClu t k = { getClu s k with armed := some (v.toNat / 65536 % 4096) }) ∧
      ((s.clk.kind ≠ 0 ∨ ((getClu s k).mode ≠ .reset ∧ (getClu s k).mode ≠ .halted)) →
        ∃ t, exec (.cluCtl m k v) s = .next t ∧ WriteRefused s t ∧
          getF t (cluReg k oCluRefusals) 63 32 = (getF s (cluReg k oCluRefusals) 63 32 + 1) % 2 ^ 32)) ∧
    (∀ mem (a : Fin 0x1000000000000) (w : List Byte), w.length ≠ (if mem then 64 else 8) → exec (.debugAccess mem a (some w)) s = .fault .illFormed) ∧
    (s.boot.power = true → s.boot.driving = false →
      (∀ (a : Fin 0x1000000000000) (w : List Byte), w.length = 8 →
        exec (.debugAccess false a (some w)) s = exec (.registerWrite .debug a (BitVec.ofNat 64 (leNat w))) s) ∧
      (∀ (a : Fin 0x1000000000000) o, Admitted s .debug false a.val 8 → decodeAddr a.val = some (.module o) →
        exec (.debugAccess false a none) s = .next { s with reply := some ⟨.ok, natLe 8 (readReg s a.val).toNat⟩ }) ∧
      (∀ tdi, exec (.bypass tdi) s = .next { s with boot := { s.boot with bypass := tdi }, reply := some ⟨.ok, [if s.boot.bypass then 1#8 else 0#8]⟩ }) ∧
      exec .idcode s = .next { s with reply := some ⟨.ok, natLe 4 (getF s (modReg oModJtagIdcode) 31 0)⟩ } ∧
      (∀ pins shift,
        exec (.samplePreload pins shift) s =
          .next { s with boot := { s.boot with boundary := shift }, reply := some ⟨.ok, pins.map fun b => if b then 1#8 else 0#8⟩ } ∧
        exec (.extest pins shift) s =
          .next { s with boot := { s.boot with boundary := shift, driving := true }, reply := some ⟨.ok, pins.map fun b => if b then 1#8 else 0#8⟩ }) ∧
      (∀ (off : Fin 0x4000000) (data : List Byte),
        (∃ t, exec (.flash true true off data) s = .next t ∧ SameMem s t ∧ t.boot.flashHold = true ∧
          (s.boot.dogs.length = 5 → t.boot.dogs.getD 0 none = none) ∧
          (∀ i, i < data.length → flashByte t (off.val + i) = data.getD i 0#8) ∧
          ∀ o, (o < off.val ∨ off.val + data.length ≤ o) → flashByte t o = flashByte s o) ∧
        (s.boot.flashHold = true → ∃ t, exec (.flash true false off data) s = .next t ∧ ModuleWasReset s t 4 ∧ t.boot.flashHold = false) ∧
        (∀ stay, ∃ t, exec (.flash false stay off data) s = .next t ∧ t.boot.flash = s.boot.flash ∧ t.boot.flashHold = s.boot.flashHold ∧
          t.boot.bypass = false)) ∧
      (allReset s = true → ∃ t, exec (.scan true) s = .next t ∧ t.boot.scanned = true ∧ t.cores = [] ∧ t.clus = [] ∧
        ∀ a, rdByte t a = if 0x200000000000 ≤ a ∧ a < 0x300040000000 then 0#8 else rdByte s a) ∧
      (allReset s = false → exec (.scan true) s = .next { s with boot := { s.boot with dbgEn := true } }) ∧
      (∃ t, exec (.scan false) s = .next t ∧ SameMem s t ∧ SameRegs s t ∧ (∀ c, getCore t c = getCore s c) ∧ t.boot.scanned = s.boot.scanned) ∧
      ∃ t, exec .resetI s = .next t ∧ ModuleWasReset s t 4)

/-- A command leaves exactly the commands behind it in the queue, and so does a step with none waiting (the model's queue). -/
def Obligations.QueueMovesByOne : Prop :=
  ∀ s t : State, step s = .next t → t.pending = s.pending.tail

/-- Whatever command or cycle comes next, the byte memory keeps its canonical form: addresses strictly rising, no byte listed
that reads as an unlisted one. -/
def Obligations.MemoryStaysCanonical : Prop :=
  ∀ s t : State, MemCanon s → step s = .next t → MemCanon t

/-- Whatever command or cycle comes next, the shapes stay: four tasks of a core (R64), sixteen registers of a steward (R220), five
watchdogs (R511), four mailboxes (R469), two image slots (R515). -/
def Obligations.ShapesStay : Prop :=
  ∀ s t : State, Shapes s → step s = .next t → Shapes t

/-- The state at reset meets both invariants: canonical memory and the shapes. -/
def Obligations.ResetIsWellKept : Prop := WellKept State.reset

/-- Two slots of the same width that mean the same command are the same bits, but for the gate fields of a fetch-side command
whose gate is off (R43 to R46, R159 to R165, R192): the decoders of the command slots drop no bit. -/
def Obligations.SlotsDecodeInjectively : Prop :=
  (∀ x y, x < 2 ^ 48 → y < 2 ^ 48 → decodeMatrix x = decodeMatrix y → decodeMatrix x ≠ none → x = y) ∧
  (∀ x y, x < 2 ^ 56 → y < 2 ^ 56 → decodeVector x = decodeVector y → decodeVector x ≠ none → x = y) ∧
  (∀ x y, x < 2 ^ 56 → y < 2 ^ 56 → decodeMove x = decodeMove y → decodeMove x ≠ none →
    x = y ∨ (x / 2 ^ 51 = y / 2 ^ 51 ∧ x / 2 ^ 51 % 2 = 0 ∧ x / 2 ^ 52 < 8 ∧ x % 2 ^ 30 = y % 2 ^ 30))

/-- Reset values (R582): in the reset state every register reads as its row of the table says, and as 0 where the table has no
row; the fused values are the module's. -/
def Obligations.ResetValues : Prop :=
  ∀ a p, decodeAddr a = some p → regionOf p = some .reg → readReg State.reset a = resetOf p
end

