-- ==== Sys2Proof/Laws/SMap.lean ====
section
/-! SUPPORT. Laws/SMap.lean: reading a table after writing it, and that writing keeps the canonical form. -/
namespace Sys2Proof.Machine
open Sys2Proof

variable {α : Type}

theorem smGet_erase_self (d : α) (k : Nat) (m : SMap α) : smGet d k (smErase k m) = d := by
  induction m with
  | nil => rfl
  | cons p m ih =>
    obtain ⟨j, v⟩ := p
    by_cases h : j = k <;> simp [smErase, smGet, h, ih]

theorem smGet_erase_ne (d : α) {j k : Nat} (h : j ≠ k) (m : SMap α) : smGet d j (smErase k m) = smGet d j m := by
  induction m with
  | nil => rfl
  | cons p m ih =>
    obtain ⟨i, v⟩ := p
    by_cases hk : i = k
    · subst hk
      simp [smErase, smGet, ih, Ne.symm h]
    · by_cases hj : i = j
      · subst hj
        simp [smErase, smGet, hk]
      · simp [smErase, smGet, hk, hj, ih]

theorem smGet_insert_ne (d : α) {j k : Nat} (v : α) (h : j ≠ k) (m : SMap α) : smGet d j (smInsert k v m) = smGet d j m := by
  induction m with
  | nil => simp [smInsert, smGet, Ne.symm h]
  | cons p m ih =>
    obtain ⟨i, w⟩ := p
    by_cases hk : k < i
    · simp [smInsert, smGet, hk, Ne.symm h]
    · by_cases hj : i = j
      · subst hj
        simp [smInsert, smGet, hk]
      · simp [smInsert, smGet, hk, hj, ih]

theorem smGet_insert_erase (d : α) (k : Nat) (v : α) (m : SMap α) : smGet d k (smInsert k v (smErase k m)) = v := by
  induction m with
  | nil => simp [smErase, smInsert, smGet]
  | cons p m ih =>
    obtain ⟨i, w⟩ := p
    by_cases hk : i = k
    · simpa [smErase, hk] using ih
    · by_cases hl : k < i <;> simp [smErase, smInsert, smGet, hk, hl, ih]

/-- A write is read back. -/
@[simp] theorem smGet_put_self [DecidableEq α] (d : α) (k : Nat) (v : α) (m : SMap α) : smGet d k (smPut d k v m) = v := by
  unfold smPut
  split
  · rw [smGet_erase_self]
    simp_all
  · exact smGet_insert_erase d k v m

/-- A write leaves the other keys. -/
theorem smGet_put_ne [DecidableEq α] (d e : α) {j k : Nat} (v : α) (h : j ≠ k) (m : SMap α) :
    smGet d j (smPut e k v m) = smGet d j m := by
  unfold smPut
  split
  · exact smGet_erase_ne d h m
  · rw [smGet_insert_ne d v h, smGet_erase_ne d h]

theorem smFind_erase_self (k : Nat) (m : SMap α) : smFind k (smErase k m) = none := by
  induction m with
  | nil => rfl
  | cons p m ih =>
    obtain ⟨j, v⟩ := p
    by_cases h : j = k <;> simp [smErase, smFind, h, ih]

theorem smFind_erase_ne {j k : Nat} (h : j ≠ k) (m : SMap α) : smFind j (smErase k m) = smFind j m := by
  induction m with
  | nil => rfl
  | cons p m ih =>
    obtain ⟨i, v⟩ := p
    by_cases hk : i = k
    · subst hk
      simp [smErase, smFind, ih, Ne.symm h]
    · by_cases hj : i = j
      · subst hj
        simp [smErase, smFind, hk]
      · simp [smErase, smFind, hk, hj, ih]

theorem smFind_insert_ne {j k : Nat} (v : α) (h : j ≠ k) (m : SMap α) : smFind j (smInsert k v m) = smFind j m := by
  induction m with
  | nil => simp [smInsert, smFind, Ne.symm h]
  | cons p m ih =>
    obtain ⟨i, w⟩ := p
    by_cases hk : k < i
    · simp [smInsert, smFind, hk, Ne.symm h]
    · by_cases hj : i = j
      · subst hj
        simp [smInsert, smFind, hk]
      · simp [smInsert, smFind, hk, hj, ih]

theorem smFind_insert_erase (k : Nat) (v : α) (m : SMap α) : smFind k (smInsert k v (smErase k m)) = some v := by
  induction m with
  | nil => simp [smErase, smInsert, smFind]
  | cons p m ih =>
    obtain ⟨i, w⟩ := p
    by_cases hk : i = k
    · simpa [smErase, hk] using ih
    · by_cases hl : k < i <;> simp [smErase, smInsert, smFind, hk, hl, ih]

/-- Looking a key up after it has been written: nothing is listed where its default was written. -/
theorem smFind_put_self [DecidableEq α] (d : α) (k : Nat) (v : α) (m : SMap α) :
    smFind k (smPut d k v m) = if v = d then none else some v := by
  unfold smPut
  split
  · exact smFind_erase_self k m
  · exact smFind_insert_erase k v m

theorem smFind_put_ne [DecidableEq α] (e : α) {j k : Nat} (v : α) (h : j ≠ k) (m : SMap α) :
    smFind j (smPut e k v m) = smFind j m := by
  unfold smPut
  split
  · exact smFind_erase_ne h m
  · rw [smFind_insert_ne v h, smFind_erase_ne h]

/-! ## The canonical form -/

/-- The canonical form, said of head and tail: the head is no default, lies below every other key, and the tail has the form. -/
theorem smWf_cons [DecidableEq α] (d : Nat → α) (k : Nat) (v : α) (m : SMap α) :
    smWf d ((k, v) :: m) = true ↔ v ≠ d k ∧ (∀ p ∈ m, k < p.1) ∧ smWf d m = true := by
  induction m generalizing k v with
  | nil => simp [smWf]
  | cons p m ih =>
    obtain ⟨j, w⟩ := p
    simp only [smWf, Bool.and_eq_true, decide_eq_true_eq, List.mem_cons, forall_eq_or_imp]
    constructor
    · rintro ⟨⟨hv, hj⟩, hm⟩
      exact ⟨hv, ⟨hj, fun p hp => Nat.lt_trans hj (((ih j w).1 hm).2.1 p hp)⟩, hm⟩
    · rintro ⟨hv, ⟨hj, -⟩, hm⟩
      exact ⟨⟨hv, hj⟩, hm⟩

theorem mem_smErase (k : Nat) (m : SMap α) (p : Nat × α) : p ∈ smErase k m ↔ p ∈ m ∧ p.1 ≠ k := by
  induction m with
  | nil => simp [smErase]
  | cons q m ih =>
    obtain ⟨j, w⟩ := q
    by_cases h : j = k
    · subst h
      simp only [smErase, ↓reduceIte, ih, List.mem_cons]
      constructor
      · exact fun ⟨a, b⟩ => ⟨.inr a, b⟩
      · rintro ⟨rfl | a, b⟩
        · exact absurd rfl b
        · exact ⟨a, b⟩
    · simp only [smErase, h, ↓reduceIte, List.mem_cons, ih]
      constructor
      · rintro (rfl | ⟨a, b⟩)
        · exact ⟨.inl rfl, h⟩
        · exact ⟨.inr a, b⟩
      · rintro ⟨rfl | a, b⟩
        · exact .inl rfl
        · exact .inr ⟨a, b⟩

theorem mem_smInsert (k : Nat) (v : α) (m : SMap α) (p : Nat × α) : p ∈ smInsert k v m ↔ p = (k, v) ∨ p ∈ m := by
  induction m with
  | nil => simp [smInsert]
  | cons q m ih =>
    obtain ⟨j, w⟩ := q
    by_cases h : k < j
    · simp [smInsert, h]
    · simp only [smInsert, h, ↓reduceIte, List.mem_cons, ih]
      exact or_left_comm

/-- Erasing keeps the canonical form. -/
theorem smWf_erase [DecidableEq α] (d : Nat → α) (k : Nat) (m : SMap α) (h : smWf d m = true) : smWf d (smErase k m) = true := by
  induction m with
  | nil => rfl
  | cons q m ih =>
    obtain ⟨j, w⟩ := q
    obtain ⟨hw, hj, hm⟩ := (smWf_cons d j w m).1 h
    by_cases hk : j = k
    · simpa [smErase, hk] using ih hm
    · simp only [smErase, hk, ↓reduceIte]
      exact (smWf_cons _ _ _ _).2 ⟨hw, fun p hp => hj p ((mem_smErase k m p).1 hp).1, ih hm⟩

/-- Inserting a value that is no default at a key that is not listed keeps the canonical form. -/
theorem smWf_insert [DecidableEq α] (d : Nat → α) (k : Nat) (v : α) (m : SMap α) (hv : v ≠ d k) (hk : ∀ p ∈ m, p.1 ≠ k)
    (h : smWf d m = true) : smWf d (smInsert k v m) = true := by
  induction m with
  | nil => simpa [smInsert, smWf] using hv
  | cons q m ih =>
    obtain ⟨j, w⟩ := q
    obtain ⟨hw, hj, hm⟩ := (smWf_cons d j w m).1 h
    by_cases hl : k < j
    · simp only [smInsert, hl, ↓reduceIte]
      refine (smWf_cons _ _ _ _).2 ⟨hv, fun p hp => ?_, h⟩
      rcases List.mem_cons.1 hp with rfl | hp
      · exact hl
      · exact Nat.lt_trans hl (hj p hp)
    · simp only [smInsert, hl, ↓reduceIte]
      have hjk : j ≠ k := hk (j, w) (by simp)
      refine (smWf_cons _ _ _ _).2 ⟨hw, fun p hp => ?_, ih (fun p hp => hk p (by simp [hp])) hm⟩
      rcases (mem_smInsert k v m p).1 hp with rfl | hp
      · simp only
        omega
      · exact hj p hp

/-- A write keeps the canonical form. -/
theorem smWf_put [DecidableEq α] (d : Nat → α) (k : Nat) (v : α) (m : SMap α) (h : smWf d m = true) :
    smWf d (smPut (d k) k v m) = true := by
  unfold smPut
  split
  · exact smWf_erase d k m h
  · exact smWf_insert d k v _ ‹_› (fun p hp => ((mem_smErase k m p).1 hp).2) (smWf_erase d k m h)

/-- Dropping entries keeps the canonical form. -/
theorem smWf_filter [DecidableEq α] (d : Nat → α) (p : Nat × α → Bool) (m : SMap α) (h : smWf d m = true) :
    smWf d (m.filter p) = true := by
  induction m with
  | nil => rfl
  | cons q m ih =>
    obtain ⟨j, w⟩ := q
    obtain ⟨hw, hj, hm⟩ := (smWf_cons d j w m).1 h
    by_cases hp : p (j, w)
    · rw [List.filter_cons_of_pos hp]
      exact (smWf_cons _ _ _ _).2 ⟨hw, fun r hr => hj r (List.mem_filter.1 hr).1, ih hm⟩
    · rw [List.filter_cons_of_neg hp]
      exact ih hm

end Sys2Proof.Machine
end

