-- ==== Sys2Proof/Laws/State.lean ====
section
/-! SUPPORT. Laws/State.lean: what each named update leaves alone, field by field. Every line holds by unfolding the
update once. -/
namespace Sys2Proof.Machine
open Sys2Proof

/-! ## setReg -/

@[simp] theorem setReg_pending (s : State) (a : Nat) (v : W64) : (setReg s a v).pending = s.pending := rfl
@[simp] theorem setReg_freeCtr (s : State) (a : Nat) (v : W64) : (setReg s a v).freeCtr = s.freeCtr := rfl
@[simp] theorem setReg_cycle (s : State) (a : Nat) (v : W64) : (setReg s a v).cycle = s.cycle := rfl
@[simp] theorem setReg_mem (s : State) (a : Nat) (v : W64) : (setReg s a v).mem = s.mem := rfl
@[simp] theorem setReg_shadow (s : State) (a : Nat) (v : W64) : (setReg s a v).shadow = s.shadow := rfl
@[simp] theorem setReg_cores (s : State) (a : Nat) (v : W64) : (setReg s a v).cores = s.cores := rfl
@[simp] theorem setReg_fields (s : State) (a : Nat) (v : W64) : (setReg s a v).fields = s.fields := rfl
@[simp] theorem setReg_clus (s : State) (a : Nat) (v : W64) : (setReg s a v).clus = s.clus := rfl
@[simp] theorem setReg_gar (s : State) (a : Nat) (v : W64) : (setReg s a v).gar = s.gar := rfl
@[simp] theorem setReg_stepBase (s : State) (a : Nat) (v : W64) : (setReg s a v).stepBase = s.stepBase := rfl
@[simp] theorem setReg_realDue (s : State) (a : Nat) (v : W64) : (setReg s a v).realDue = s.realDue := rfl
@[simp] theorem setReg_ns (s : State) (a : Nat) (v : W64) : (setReg s a v).ns = s.ns := rfl
@[simp] theorem setReg_clk (s : State) (a : Nat) (v : W64) : (setReg s a v).clk = s.clk := rfl
@[simp] theorem setReg_links (s : State) (a : Nat) (v : W64) : (setReg s a v).links = s.links := rfl
@[simp] theorem setReg_dom (s : State) (a : Nat) (v : W64) : (setReg s a v).dom = s.dom := rfl
@[simp] theorem setReg_twin (s : State) (a : Nat) (v : W64) : (setReg s a v).twin = s.twin := rfl
@[simp] theorem setReg_pwr (s : State) (a : Nat) (v : W64) : (setReg s a v).pwr = s.pwr := rfl
@[simp] theorem setReg_smb (s : State) (a : Nat) (v : W64) : (setReg s a v).smb = s.smb := rfl
@[simp] theorem setReg_host (s : State) (a : Nat) (v : W64) : (setReg s a v).host = s.host := rfl
@[simp] theorem setReg_boot (s : State) (a : Nat) (v : W64) : (setReg s a v).boot = s.boot := rfl
@[simp] theorem setReg_msix (s : State) (a : Nat) (v : W64) : (setReg s a v).msix = s.msix := rfl
@[simp] theorem setReg_carQ (s : State) (a : Nat) (v : W64) : (setReg s a v).carQ = s.carQ := rfl
@[simp] theorem setReg_reply (s : State) (a : Nat) (v : W64) : (setReg s a v).reply = s.reply := rfl
@[simp] theorem setReg_clocksOn (s : State) (a : Nat) (v : W64) : (setReg s a v).clocksOn = s.clocksOn := rfl

/-! ## setF -/

@[simp] theorem setF_pending (s : State) (a hi lo v : Nat) : (setF s a hi lo v).pending = s.pending := setReg_pending _ _ _
@[simp] theorem setF_freeCtr (s : State) (a hi lo v : Nat) : (setF s a hi lo v).freeCtr = s.freeCtr := setReg_freeCtr _ _ _
@[simp] theorem setF_cycle (s : State) (a hi lo v : Nat) : (setF s a hi lo v).cycle = s.cycle := setReg_cycle _ _ _
@[simp] theorem setF_mem (s : State) (a hi lo v : Nat) : (setF s a hi lo v).mem = s.mem := setReg_mem _ _ _
@[simp] theorem setF_shadow (s : State) (a hi lo v : Nat) : (setF s a hi lo v).shadow = s.shadow := setReg_shadow _ _ _
@[simp] theorem setF_cores (s : State) (a hi lo v : Nat) : (setF s a hi lo v).cores = s.cores := setReg_cores _ _ _
@[simp] theorem setF_fields (s : State) (a hi lo v : Nat) : (setF s a hi lo v).fields = s.fields := setReg_fields _ _ _
@[simp] theorem setF_clus (s : State) (a hi lo v : Nat) : (setF s a hi lo v).clus = s.clus := setReg_clus _ _ _
@[simp] theorem setF_gar (s : State) (a hi lo v : Nat) : (setF s a hi lo v).gar = s.gar := setReg_gar _ _ _
@[simp] theorem setF_stepBase (s : State) (a hi lo v : Nat) : (setF s a hi lo v).stepBase = s.stepBase := setReg_stepBase _ _ _
@[simp] theorem setF_realDue (s : State) (a hi lo v : Nat) : (setF s a hi lo v).realDue = s.realDue := setReg_realDue _ _ _
@[simp] theorem setF_ns (s : State) (a hi lo v : Nat) : (setF s a hi lo v).ns = s.ns := setReg_ns _ _ _
@[simp] theorem setF_clk (s : State) (a hi lo v : Nat) : (setF s a hi lo v).clk = s.clk := setReg_clk _ _ _
@[simp] theorem setF_links (s : State) (a hi lo v : Nat) : (setF s a hi lo v).links = s.links := setReg_links _ _ _
@[simp] theorem setF_dom (s : State) (a hi lo v : Nat) : (setF s a hi lo v).dom = s.dom := setReg_dom _ _ _
@[simp] theorem setF_twin (s : State) (a hi lo v : Nat) : (setF s a hi lo v).twin = s.twin := setReg_twin _ _ _
@[simp] theorem setF_pwr (s : State) (a hi lo v : Nat) : (setF s a hi lo v).pwr = s.pwr := setReg_pwr _ _ _
@[simp] theorem setF_smb (s : State) (a hi lo v : Nat) : (setF s a hi lo v).smb = s.smb := setReg_smb _ _ _
@[simp] theorem setF_host (s : State) (a hi lo v : Nat) : (setF s a hi lo v).host = s.host := setReg_host _ _ _
@[simp] theorem setF_boot (s : State) (a hi lo v : Nat) : (setF s a hi lo v).boot = s.boot := setReg_boot _ _ _
@[simp] theorem setF_msix (s : State) (a hi lo v : Nat) : (setF s a hi lo v).msix = s.msix := setReg_msix _ _ _
@[simp] theorem setF_carQ (s : State) (a hi lo v : Nat) : (setF s a hi lo v).carQ = s.carQ := setReg_carQ _ _ _
@[simp] theorem setF_reply (s : State) (a hi lo v : Nat) : (setF s a hi lo v).reply = s.reply := setReg_reply _ _ _
@[simp] theorem setF_clocksOn (s : State) (a hi lo v : Nat) : (setF s a hi lo v).clocksOn = s.clocksOn := setReg_clocksOn _ _ _

/-! ## addF -/

@[simp] theorem addF_pending (s : State) (a hi lo n : Nat) : (addF s a hi lo n).pending = s.pending := setReg_pending _ _ _
@[simp] theorem addF_freeCtr (s : State) (a hi lo n : Nat) : (addF s a hi lo n).freeCtr = s.freeCtr := setReg_freeCtr _ _ _
@[simp] theorem addF_cycle (s : State) (a hi lo n : Nat) : (addF s a hi lo n).cycle = s.cycle := setReg_cycle _ _ _
@[simp] theorem addF_mem (s : State) (a hi lo n : Nat) : (addF s a hi lo n).mem = s.mem := setReg_mem _ _ _
@[simp] theorem addF_shadow (s : State) (a hi lo n : Nat) : (addF s a hi lo n).shadow = s.shadow := setReg_shadow _ _ _
@[simp] theorem addF_cores (s : State) (a hi lo n : Nat) : (addF s a hi lo n).cores = s.cores := setReg_cores _ _ _
@[simp] theorem addF_fields (s : State) (a hi lo n : Nat) : (addF s a hi lo n).fields = s.fields := setReg_fields _ _ _
@[simp] theorem addF_clus (s : State) (a hi lo n : Nat) : (addF s a hi lo n).clus = s.clus := setReg_clus _ _ _
@[simp] theorem addF_gar (s : State) (a hi lo n : Nat) : (addF s a hi lo n).gar = s.gar := setReg_gar _ _ _
@[simp] theorem addF_stepBase (s : State) (a hi lo n : Nat) : (addF s a hi lo n).stepBase = s.stepBase := setReg_stepBase _ _ _
@[simp] theorem addF_realDue (s : State) (a hi lo n : Nat) : (addF s a hi lo n).realDue = s.realDue := setReg_realDue _ _ _
@[simp] theorem addF_ns (s : State) (a hi lo n : Nat) : (addF s a hi lo n).ns = s.ns := setReg_ns _ _ _
@[simp] theorem addF_clk (s : State) (a hi lo n : Nat) : (addF s a hi lo n).clk = s.clk := setReg_clk _ _ _
@[simp] theorem addF_links (s : State) (a hi lo n : Nat) : (addF s a hi lo n).links = s.links := setReg_links _ _ _
@[simp] theorem addF_dom (s : State) (a hi lo n : Nat) : (addF s a hi lo n).dom = s.dom := setReg_dom _ _ _
@[simp] theorem addF_twin (s : State) (a hi lo n : Nat) : (addF s a hi lo n).twin = s.twin := setReg_twin _ _ _
@[simp] theorem addF_pwr (s : State) (a hi lo n : Nat) : (addF s a hi lo n).pwr = s.pwr := setReg_pwr _ _ _
@[simp] theorem addF_smb (s : State) (a hi lo n : Nat) : (addF s a hi lo n).smb = s.smb := setReg_smb _ _ _
@[simp] theorem addF_host (s : State) (a hi lo n : Nat) : (addF s a hi lo n).host = s.host := setReg_host _ _ _
@[simp] theorem addF_boot (s : State) (a hi lo n : Nat) : (addF s a hi lo n).boot = s.boot := setReg_boot _ _ _
@[simp] theorem addF_msix (s : State) (a hi lo n : Nat) : (addF s a hi lo n).msix = s.msix := setReg_msix _ _ _
@[simp] theorem addF_carQ (s : State) (a hi lo n : Nat) : (addF s a hi lo n).carQ = s.carQ := setReg_carQ _ _ _
@[simp] theorem addF_reply (s : State) (a hi lo n : Nat) : (addF s a hi lo n).reply = s.reply := setReg_reply _ _ _
@[simp] theorem addF_clocksOn (s : State) (a hi lo n : Nat) : (addF s a hi lo n).clocksOn = s.clocksOn := setReg_clocksOn _ _ _

/-! ## satF -/

@[simp] theorem satF_pending (s : State) (a hi lo n : Nat) : (satF s a hi lo n).pending = s.pending := setReg_pending _ _ _
@[simp] theorem satF_freeCtr (s : State) (a hi lo n : Nat) : (satF s a hi lo n).freeCtr = s.freeCtr := setReg_freeCtr _ _ _
@[simp] theorem satF_cycle (s : State) (a hi lo n : Nat) : (satF s a hi lo n).cycle = s.cycle := setReg_cycle _ _ _
@[simp] theorem satF_mem (s : State) (a hi lo n : Nat) : (satF s a hi lo n).mem = s.mem := setReg_mem _ _ _
@[simp] theorem satF_shadow (s : State) (a hi lo n : Nat) : (satF s a hi lo n).shadow = s.shadow := setReg_shadow _ _ _
@[simp] theorem satF_cores (s : State) (a hi lo n : Nat) : (satF s a hi lo n).cores = s.cores := setReg_cores _ _ _
@[simp] theorem satF_fields (s : State) (a hi lo n : Nat) : (satF s a hi lo n).fields = s.fields := setReg_fields _ _ _
@[simp] theorem satF_clus (s : State) (a hi lo n : Nat) : (satF s a hi lo n).clus = s.clus := setReg_clus _ _ _
@[simp] theorem satF_gar (s : State) (a hi lo n : Nat) : (satF s a hi lo n).gar = s.gar := setReg_gar _ _ _
@[simp] theorem satF_stepBase (s : State) (a hi lo n : Nat) : (satF s a hi lo n).stepBase = s.stepBase := setReg_stepBase _ _ _
@[simp] theorem satF_realDue (s : State) (a hi lo n : Nat) : (satF s a hi lo n).realDue = s.realDue := setReg_realDue _ _ _
@[simp] theorem satF_ns (s : State) (a hi lo n : Nat) : (satF s a hi lo n).ns = s.ns := setReg_ns _ _ _
@[simp] theorem satF_clk (s : State) (a hi lo n : Nat) : (satF s a hi lo n).clk = s.clk := setReg_clk _ _ _
@[simp] theorem satF_links (s : State) (a hi lo n : Nat) : (satF s a hi lo n).links = s.links := setReg_links _ _ _
@[simp] theorem satF_dom (s : State) (a hi lo n : Nat) : (satF s a hi lo n).dom = s.dom := setReg_dom _ _ _
@[simp] theorem satF_twin (s : State) (a hi lo n : Nat) : (satF s a hi lo n).twin = s.twin := setReg_twin _ _ _
@[simp] theorem satF_pwr (s : State) (a hi lo n : Nat) : (satF s a hi lo n).pwr = s.pwr := setReg_pwr _ _ _
@[simp] theorem satF_smb (s : State) (a hi lo n : Nat) : (satF s a hi lo n).smb = s.smb := setReg_smb _ _ _
@[simp] theorem satF_host (s : State) (a hi lo n : Nat) : (satF s a hi lo n).host = s.host := setReg_host _ _ _
@[simp] theorem satF_boot (s : State) (a hi lo n : Nat) : (satF s a hi lo n).boot = s.boot := setReg_boot _ _ _
@[simp] theorem satF_msix (s : State) (a hi lo n : Nat) : (satF s a hi lo n).msix = s.msix := setReg_msix _ _ _
@[simp] theorem satF_carQ (s : State) (a hi lo n : Nat) : (satF s a hi lo n).carQ = s.carQ := setReg_carQ _ _ _
@[simp] theorem satF_reply (s : State) (a hi lo n : Nat) : (satF s a hi lo n).reply = s.reply := setReg_reply _ _ _
@[simp] theorem satF_clocksOn (s : State) (a hi lo n : Nat) : (satF s a hi lo n).clocksOn = s.clocksOn := setReg_clocksOn _ _ _

/-! ## setArith -/

@[simp] theorem setArith_pending (s : State) (c : Nat) (f : ArithFlags) : (setArith s c f).pending = s.pending := setReg_pending _ _ _
@[simp] theorem setArith_freeCtr (s : State) (c : Nat) (f : ArithFlags) : (setArith s c f).freeCtr = s.freeCtr := setReg_freeCtr _ _ _
@[simp] theorem setArith_cycle (s : State) (c : Nat) (f : ArithFlags) : (setArith s c f).cycle = s.cycle := setReg_cycle _ _ _
@[simp] theorem setArith_mem (s : State) (c : Nat) (f : ArithFlags) : (setArith s c f).mem = s.mem := setReg_mem _ _ _
@[simp] theorem setArith_shadow (s : State) (c : Nat) (f : ArithFlags) : (setArith s c f).shadow = s.shadow := setReg_shadow _ _ _
@[simp] theorem setArith_cores (s : State) (c : Nat) (f : ArithFlags) : (setArith s c f).cores = s.cores := setReg_cores _ _ _
@[simp] theorem setArith_fields (s : State) (c : Nat) (f : ArithFlags) : (setArith s c f).fields = s.fields := setReg_fields _ _ _
@[simp] theorem setArith_clus (s : State) (c : Nat) (f : ArithFlags) : (setArith s c f).clus = s.clus := setReg_clus _ _ _
@[simp] theorem setArith_gar (s : State) (c : Nat) (f : ArithFlags) : (setArith s c f).gar = s.gar := setReg_gar _ _ _
@[simp] theorem setArith_stepBase (s : State) (c : Nat) (f : ArithFlags) : (setArith s c f).stepBase = s.stepBase := setReg_stepBase _ _ _
@[simp] theorem setArith_realDue (s : State) (c : Nat) (f : ArithFlags) : (setArith s c f).realDue = s.realDue := setReg_realDue _ _ _
@[simp] theorem setArith_ns (s : State) (c : Nat) (f : ArithFlags) : (setArith s c f).ns = s.ns := setReg_ns _ _ _
@[simp] theorem setArith_clk (s : State) (c : Nat) (f : ArithFlags) : (setArith s c f).clk = s.clk := setReg_clk _ _ _
@[simp] theorem setArith_links (s : State) (c : Nat) (f : ArithFlags) : (setArith s c f).links = s.links := setReg_links _ _ _
@[simp] theorem setArith_dom (s : State) (c : Nat) (f : ArithFlags) : (setArith s c f).dom = s.dom := setReg_dom _ _ _
@[simp] theorem setArith_twin (s : State) (c : Nat) (f : ArithFlags) : (setArith s c f).twin = s.twin := setReg_twin _ _ _
@[simp] theorem setArith_pwr (s : State) (c : Nat) (f : ArithFlags) : (setArith s c f).pwr = s.pwr := setReg_pwr _ _ _
@[simp] theorem setArith_smb (s : State) (c : Nat) (f : ArithFlags) : (setArith s c f).smb = s.smb := setReg_smb _ _ _
@[simp] theorem setArith_host (s : State) (c : Nat) (f : ArithFlags) : (setArith s c f).host = s.host := setReg_host _ _ _
@[simp] theorem setArith_boot (s : State) (c : Nat) (f : ArithFlags) : (setArith s c f).boot = s.boot := setReg_boot _ _ _
@[simp] theorem setArith_msix (s : State) (c : Nat) (f : ArithFlags) : (setArith s c f).msix = s.msix := setReg_msix _ _ _
@[simp] theorem setArith_carQ (s : State) (c : Nat) (f : ArithFlags) : (setArith s c f).carQ = s.carQ := setReg_carQ _ _ _
@[simp] theorem setArith_reply (s : State) (c : Nat) (f : ArithFlags) : (setArith s c f).reply = s.reply := setReg_reply _ _ _
@[simp] theorem setArith_clocksOn (s : State) (c : Nat) (f : ArithFlags) : (setArith s c f).clocksOn = s.clocksOn := setReg_clocksOn _ _ _

/-! ## setCtr -/

@[simp] theorem setCtr_pending (s : State) (c i : Nat) (v : BitVec 16) : (setCtr s c i v).pending = s.pending := setReg_pending _ _ _
@[simp] theorem setCtr_freeCtr (s : State) (c i : Nat) (v : BitVec 16) : (setCtr s c i v).freeCtr = s.freeCtr := setReg_freeCtr _ _ _
@[simp] theorem setCtr_cycle (s : State) (c i : Nat) (v : BitVec 16) : (setCtr s c i v).cycle = s.cycle := setReg_cycle _ _ _
@[simp] theorem setCtr_mem (s : State) (c i : Nat) (v : BitVec 16) : (setCtr s c i v).mem = s.mem := setReg_mem _ _ _
@[simp] theorem setCtr_shadow (s : State) (c i : Nat) (v : BitVec 16) : (setCtr s c i v).shadow = s.shadow := setReg_shadow _ _ _
@[simp] theorem setCtr_cores (s : State) (c i : Nat) (v : BitVec 16) : (setCtr s c i v).cores = s.cores := setReg_cores _ _ _
@[simp] theorem setCtr_fields (s : State) (c i : Nat) (v : BitVec 16) : (setCtr s c i v).fields = s.fields := setReg_fields _ _ _
@[simp] theorem setCtr_clus (s : State) (c i : Nat) (v : BitVec 16) : (setCtr s c i v).clus = s.clus := setReg_clus _ _ _
@[simp] theorem setCtr_gar (s : State) (c i : Nat) (v : BitVec 16) : (setCtr s c i v).gar = s.gar := setReg_gar _ _ _
@[simp] theorem setCtr_stepBase (s : State) (c i : Nat) (v : BitVec 16) : (setCtr s c i v).stepBase = s.stepBase := setReg_stepBase _ _ _
@[simp] theorem setCtr_realDue (s : State) (c i : Nat) (v : BitVec 16) : (setCtr s c i v).realDue = s.realDue := setReg_realDue _ _ _
@[simp] theorem setCtr_ns (s : State) (c i : Nat) (v : BitVec 16) : (setCtr s c i v).ns = s.ns := setReg_ns _ _ _
@[simp] theorem setCtr_clk (s : State) (c i : Nat) (v : BitVec 16) : (setCtr s c i v).clk = s.clk := setReg_clk _ _ _
@[simp] theorem setCtr_links (s : State) (c i : Nat) (v : BitVec 16) : (setCtr s c i v).links = s.links := setReg_links _ _ _
@[simp] theorem setCtr_dom (s : State) (c i : Nat) (v : BitVec 16) : (setCtr s c i v).dom = s.dom := setReg_dom _ _ _
@[simp] theorem setCtr_twin (s : State) (c i : Nat) (v : BitVec 16) : (setCtr s c i v).twin = s.twin := setReg_twin _ _ _
@[simp] theorem setCtr_pwr (s : State) (c i : Nat) (v : BitVec 16) : (setCtr s c i v).pwr = s.pwr := setReg_pwr _ _ _
@[simp] theorem setCtr_smb (s : State) (c i : Nat) (v : BitVec 16) : (setCtr s c i v).smb = s.smb := setReg_smb _ _ _
@[simp] theorem setCtr_host (s : State) (c i : Nat) (v : BitVec 16) : (setCtr s c i v).host = s.host := setReg_host _ _ _
@[simp] theorem setCtr_boot (s : State) (c i : Nat) (v : BitVec 16) : (setCtr s c i v).boot = s.boot := setReg_boot _ _ _
@[simp] theorem setCtr_msix (s : State) (c i : Nat) (v : BitVec 16) : (setCtr s c i v).msix = s.msix := setReg_msix _ _ _
@[simp] theorem setCtr_carQ (s : State) (c i : Nat) (v : BitVec 16) : (setCtr s c i v).carQ = s.carQ := setReg_carQ _ _ _
@[simp] theorem setCtr_reply (s : State) (c i : Nat) (v : BitVec 16) : (setCtr s c i v).reply = s.reply := setReg_reply _ _ _
@[simp] theorem setCtr_clocksOn (s : State) (c i : Nat) (v : BitVec 16) : (setCtr s c i v).clocksOn = s.clocksOn := setReg_clocksOn _ _ _

/-! ## wrByte -/

@[simp] theorem wrByte_pending (s : State) (a : Nat) (b : Byte) : (wrByte s a b).pending = s.pending := rfl
@[simp] theorem wrByte_freeCtr (s : State) (a : Nat) (b : Byte) : (wrByte s a b).freeCtr = s.freeCtr := rfl
@[simp] theorem wrByte_cycle (s : State) (a : Nat) (b : Byte) : (wrByte s a b).cycle = s.cycle := rfl
@[simp] theorem wrByte_regs (s : State) (a : Nat) (b : Byte) : (wrByte s a b).regs = s.regs := rfl
@[simp] theorem wrByte_shadow (s : State) (a : Nat) (b : Byte) : (wrByte s a b).shadow = s.shadow := rfl
@[simp] theorem wrByte_cores (s : State) (a : Nat) (b : Byte) : (wrByte s a b).cores = s.cores := rfl
@[simp] theorem wrByte_fields (s : State) (a : Nat) (b : Byte) : (wrByte s a b).fields = s.fields := rfl
@[simp] theorem wrByte_clus (s : State) (a : Nat) (b : Byte) : (wrByte s a b).clus = s.clus := rfl
@[simp] theorem wrByte_gar (s : State) (a : Nat) (b : Byte) : (wrByte s a b).gar = s.gar := rfl
@[simp] theorem wrByte_stepBase (s : State) (a : Nat) (b : Byte) : (wrByte s a b).stepBase = s.stepBase := rfl
@[simp] theorem wrByte_realDue (s : State) (a : Nat) (b : Byte) : (wrByte s a b).realDue = s.realDue := rfl
@[simp] theorem wrByte_ns (s : State) (a : Nat) (b : Byte) : (wrByte s a b).ns = s.ns := rfl
@[simp] theorem wrByte_clk (s : State) (a : Nat) (b : Byte) : (wrByte s a b).clk = s.clk := rfl
@[simp] theorem wrByte_links (s : State) (a : Nat) (b : Byte) : (wrByte s a b).links = s.links := rfl
@[simp] theorem wrByte_dom (s : State) (a : Nat) (b : Byte) : (wrByte s a b).dom = s.dom := rfl
@[simp] theorem wrByte_twin (s : State) (a : Nat) (b : Byte) : (wrByte s a b).twin = s.twin := rfl
@[simp] theorem wrByte_pwr (s : State) (a : Nat) (b : Byte) : (wrByte s a b).pwr = s.pwr := rfl
@[simp] theorem wrByte_smb (s : State) (a : Nat) (b : Byte) : (wrByte s a b).smb = s.smb := rfl
@[simp] theorem wrByte_host (s : State) (a : Nat) (b : Byte) : (wrByte s a b).host = s.host := rfl
@[simp] theorem wrByte_boot (s : State) (a : Nat) (b : Byte) : (wrByte s a b).boot = s.boot := rfl
@[simp] theorem wrByte_msix (s : State) (a : Nat) (b : Byte) : (wrByte s a b).msix = s.msix := rfl
@[simp] theorem wrByte_carQ (s : State) (a : Nat) (b : Byte) : (wrByte s a b).carQ = s.carQ := rfl
@[simp] theorem wrByte_reply (s : State) (a : Nat) (b : Byte) : (wrByte s a b).reply = s.reply := rfl
@[simp] theorem wrByte_clocksOn (s : State) (a : Nat) (b : Byte) : (wrByte s a b).clocksOn = s.clocksOn := rfl

/-! ## setCore -/

@[simp] theorem setCore_pending (s : State) (c : Nat) (x : CoreSt) : (setCore s c x).pending = s.pending := rfl
@[simp] theorem setCore_freeCtr (s : State) (c : Nat) (x : CoreSt) : (setCore s c x).freeCtr = s.freeCtr := rfl
@[simp] theorem setCore_cycle (s : State) (c : Nat) (x : CoreSt) : (setCore s c x).cycle = s.cycle := rfl
@[simp] theorem setCore_mem (s : State) (c : Nat) (x : CoreSt) : (setCore s c x).mem = s.mem := rfl
@[simp] theorem setCore_regs (s : State) (c : Nat) (x : CoreSt) : (setCore s c x).regs = s.regs := rfl
@[simp] theorem setCore_shadow (s : State) (c : Nat) (x : CoreSt) : (setCore s c x).shadow = s.shadow := rfl
@[simp] theorem setCore_fields (s : State) (c : Nat) (x : CoreSt) : (setCore s c x).fields = s.fields := rfl
@[simp] theorem setCore_clus (s : State) (c : Nat) (x : CoreSt) : (setCore s c x).clus = s.clus := rfl
@[simp] theorem setCore_gar (s : State) (c : Nat) (x : CoreSt) : (setCore s c x).gar = s.gar := rfl
@[simp] theorem setCore_stepBase (s : State) (c : Nat) (x : CoreSt) : (setCore s c x).stepBase = s.stepBase := rfl
@[simp] theorem setCore_realDue (s : State) (c : Nat) (x : CoreSt) : (setCore s c x).realDue = s.realDue := rfl
@[simp] theorem setCore_ns (s : State) (c : Nat) (x : CoreSt) : (setCore s c x).ns = s.ns := rfl
@[simp] theorem setCore_clk (s : State) (c : Nat) (x : CoreSt) : (setCore s c x).clk = s.clk := rfl
@[simp] theorem setCore_links (s : State) (c : Nat) (x : CoreSt) : (setCore s c x).links = s.links := rfl
@[simp] theorem setCore_dom (s : State) (c : Nat) (x : CoreSt) : (setCore s c x).dom = s.dom := rfl
@[simp] theorem setCore_twin (s : State) (c : Nat) (x : CoreSt) : (setCore s c x).twin = s.twin := rfl
@[simp] theorem setCore_pwr (s : State) (c : Nat) (x : CoreSt) : (setCore s c x).pwr = s.pwr := rfl
@[simp] theorem setCore_smb (s : State) (c : Nat) (x : CoreSt) : (setCore s c x).smb = s.smb := rfl
@[simp] theorem setCore_host (s : State) (c : Nat) (x : CoreSt) : (setCore s c x).host = s.host := rfl
@[simp] theorem setCore_boot (s : State) (c : Nat) (x : CoreSt) : (setCore s c x).boot = s.boot := rfl
@[simp] theorem setCore_msix (s : State) (c : Nat) (x : CoreSt) : (setCore s c x).msix = s.msix := rfl
@[simp] theorem setCore_carQ (s : State) (c : Nat) (x : CoreSt) : (setCore s c x).carQ = s.carQ := rfl
@[simp] theorem setCore_reply (s : State) (c : Nat) (x : CoreSt) : (setCore s c x).reply = s.reply := rfl
@[simp] theorem setCore_clocksOn (s : State) (c : Nat) (x : CoreSt) : (setCore s c x).clocksOn = s.clocksOn := rfl

/-! ## modCore -/

@[simp] theorem modCore_pending (s : State) (c : Nat) (f : CoreSt → CoreSt) : (modCore s c f).pending = s.pending := setCore_pending _ _ _
@[simp] theorem modCore_freeCtr (s : State) (c : Nat) (f : CoreSt → CoreSt) : (modCore s c f).freeCtr = s.freeCtr := setCore_freeCtr _ _ _
@[simp] theorem modCore_cycle (s : State) (c : Nat) (f : CoreSt → CoreSt) : (modCore s c f).cycle = s.cycle := setCore_cycle _ _ _
@[simp] theorem modCore_mem (s : State) (c : Nat) (f : CoreSt → CoreSt) : (modCore s c f).mem = s.mem := setCore_mem _ _ _
@[simp] theorem modCore_regs (s : State) (c : Nat) (f : CoreSt → CoreSt) : (modCore s c f).regs = s.regs := setCore_regs _ _ _
@[simp] theorem modCore_shadow (s : State) (c : Nat) (f : CoreSt → CoreSt) : (modCore s c f).shadow = s.shadow := setCore_shadow _ _ _
@[simp] theorem modCore_fields (s : State) (c : Nat) (f : CoreSt → CoreSt) : (modCore s c f).fields = s.fields := setCore_fields _ _ _
@[simp] theorem modCore_clus (s : State) (c : Nat) (f : CoreSt → CoreSt) : (modCore s c f).clus = s.clus := setCore_clus _ _ _
@[simp] theorem modCore_gar (s : State) (c : Nat) (f : CoreSt → CoreSt) : (modCore s c f).gar = s.gar := setCore_gar _ _ _
@[simp] theorem modCore_stepBase (s : State) (c : Nat) (f : CoreSt → CoreSt) : (modCore s c f).stepBase = s.stepBase := setCore_stepBase _ _ _
@[simp] theorem modCore_realDue (s : State) (c : Nat) (f : CoreSt → CoreSt) : (modCore s c f).realDue = s.realDue := setCore_realDue _ _ _
@[simp] theorem modCore_ns (s : State) (c : Nat) (f : CoreSt → CoreSt) : (modCore s c f).ns = s.ns := setCore_ns _ _ _
@[simp] theorem modCore_clk (s : State) (c : Nat) (f : CoreSt → CoreSt) : (modCore s c f).clk = s.clk := setCore_clk _ _ _
@[simp] theorem modCore_links (s : State) (c : Nat) (f : CoreSt → CoreSt) : (modCore s c f).links = s.links := setCore_links _ _ _
@[simp] theorem modCore_dom (s : State) (c : Nat) (f : CoreSt → CoreSt) : (modCore s c f).dom = s.dom := setCore_dom _ _ _
@[simp] theorem modCore_twin (s : State) (c : Nat) (f : CoreSt → CoreSt) : (modCore s c f).twin = s.twin := setCore_twin _ _ _
@[simp] theorem modCore_pwr (s : State) (c : Nat) (f : CoreSt → CoreSt) : (modCore s c f).pwr = s.pwr := setCore_pwr _ _ _
@[simp] theorem modCore_smb (s : State) (c : Nat) (f : CoreSt → CoreSt) : (modCore s c f).smb = s.smb := setCore_smb _ _ _
@[simp] theorem modCore_host (s : State) (c : Nat) (f : CoreSt → CoreSt) : (modCore s c f).host = s.host := setCore_host _ _ _
@[simp] theorem modCore_boot (s : State) (c : Nat) (f : CoreSt → CoreSt) : (modCore s c f).boot = s.boot := setCore_boot _ _ _
@[simp] theorem modCore_msix (s : State) (c : Nat) (f : CoreSt → CoreSt) : (modCore s c f).msix = s.msix := setCore_msix _ _ _
@[simp] theorem modCore_carQ (s : State) (c : Nat) (f : CoreSt → CoreSt) : (modCore s c f).carQ = s.carQ := setCore_carQ _ _ _
@[simp] theorem modCore_reply (s : State) (c : Nat) (f : CoreSt → CoreSt) : (modCore s c f).reply = s.reply := setCore_reply _ _ _
@[simp] theorem modCore_clocksOn (s : State) (c : Nat) (f : CoreSt → CoreSt) : (modCore s c f).clocksOn = s.clocksOn := setCore_clocksOn _ _ _

/-! ## ctrBump -/

@[simp] theorem ctrBump_pending (s : State) (c i : Nat) (d : Int) : (ctrBump s c i d).pending = s.pending := setCore_pending _ _ _
@[simp] theorem ctrBump_freeCtr (s : State) (c i : Nat) (d : Int) : (ctrBump s c i d).freeCtr = s.freeCtr := setCore_freeCtr _ _ _
@[simp] theorem ctrBump_cycle (s : State) (c i : Nat) (d : Int) : (ctrBump s c i d).cycle = s.cycle := setCore_cycle _ _ _
@[simp] theorem ctrBump_mem (s : State) (c i : Nat) (d : Int) : (ctrBump s c i d).mem = s.mem := setCore_mem _ _ _
@[simp] theorem ctrBump_regs (s : State) (c i : Nat) (d : Int) : (ctrBump s c i d).regs = s.regs := setCore_regs _ _ _
@[simp] theorem ctrBump_shadow (s : State) (c i : Nat) (d : Int) : (ctrBump s c i d).shadow = s.shadow := setCore_shadow _ _ _
@[simp] theorem ctrBump_fields (s : State) (c i : Nat) (d : Int) : (ctrBump s c i d).fields = s.fields := setCore_fields _ _ _
@[simp] theorem ctrBump_clus (s : State) (c i : Nat) (d : Int) : (ctrBump s c i d).clus = s.clus := setCore_clus _ _ _
@[simp] theorem ctrBump_gar (s : State) (c i : Nat) (d : Int) : (ctrBump s c i d).gar = s.gar := setCore_gar _ _ _
@[simp] theorem ctrBump_stepBase (s : State) (c i : Nat) (d : Int) : (ctrBump s c i d).stepBase = s.stepBase := setCore_stepBase _ _ _
@[simp] theorem ctrBump_realDue (s : State) (c i : Nat) (d : Int) : (ctrBump s c i d).realDue = s.realDue := setCore_realDue _ _ _
@[simp] theorem ctrBump_ns (s : State) (c i : Nat) (d : Int) : (ctrBump s c i d).ns = s.ns := setCore_ns _ _ _
@[simp] theorem ctrBump_clk (s : State) (c i : Nat) (d : Int) : (ctrBump s c i d).clk = s.clk := setCore_clk _ _ _
@[simp] theorem ctrBump_links (s : State) (c i : Nat) (d : Int) : (ctrBump s c i d).links = s.links := setCore_links _ _ _
@[simp] theorem ctrBump_dom (s : State) (c i : Nat) (d : Int) : (ctrBump s c i d).dom = s.dom := setCore_dom _ _ _
@[simp] theorem ctrBump_twin (s : State) (c i : Nat) (d : Int) : (ctrBump s c i d).twin = s.twin := setCore_twin _ _ _
@[simp] theorem ctrBump_pwr (s : State) (c i : Nat) (d : Int) : (ctrBump s c i d).pwr = s.pwr := setCore_pwr _ _ _
@[simp] theorem ctrBump_smb (s : State) (c i : Nat) (d : Int) : (ctrBump s c i d).smb = s.smb := setCore_smb _ _ _
@[simp] theorem ctrBump_host (s : State) (c i : Nat) (d : Int) : (ctrBump s c i d).host = s.host := setCore_host _ _ _
@[simp] theorem ctrBump_boot (s : State) (c i : Nat) (d : Int) : (ctrBump s c i d).boot = s.boot := setCore_boot _ _ _
@[simp] theorem ctrBump_msix (s : State) (c i : Nat) (d : Int) : (ctrBump s c i d).msix = s.msix := setCore_msix _ _ _
@[simp] theorem ctrBump_carQ (s : State) (c i : Nat) (d : Int) : (ctrBump s c i d).carQ = s.carQ := setCore_carQ _ _ _
@[simp] theorem ctrBump_reply (s : State) (c i : Nat) (d : Int) : (ctrBump s c i d).reply = s.reply := setCore_reply _ _ _
@[simp] theorem ctrBump_clocksOn (s : State) (c i : Nat) (d : Int) : (ctrBump s c i d).clocksOn = s.clocksOn := setCore_clocksOn _ _ _

/-! ## setField -/

@[simp] theorem setField_pending (s : State) (f : Nat) (x : FieldSt) : (setField s f x).pending = s.pending := rfl
@[simp] theorem setField_freeCtr (s : State) (f : Nat) (x : FieldSt) : (setField s f x).freeCtr = s.freeCtr := rfl
@[simp] theorem setField_cycle (s : State) (f : Nat) (x : FieldSt) : (setField s f x).cycle = s.cycle := rfl
@[simp] theorem setField_mem (s : State) (f : Nat) (x : FieldSt) : (setField s f x).mem = s.mem := rfl
@[simp] theorem setField_regs (s : State) (f : Nat) (x : FieldSt) : (setField s f x).regs = s.regs := rfl
@[simp] theorem setField_shadow (s : State) (f : Nat) (x : FieldSt) : (setField s f x).shadow = s.shadow := rfl
@[simp] theorem setField_cores (s : State) (f : Nat) (x : FieldSt) : (setField s f x).cores = s.cores := rfl
@[simp] theorem setField_clus (s : State) (f : Nat) (x : FieldSt) : (setField s f x).clus = s.clus := rfl
@[simp] theorem setField_gar (s : State) (f : Nat) (x : FieldSt) : (setField s f x).gar = s.gar := rfl
@[simp] theorem setField_stepBase (s : State) (f : Nat) (x : FieldSt) : (setField s f x).stepBase = s.stepBase := rfl
@[simp] theorem setField_realDue (s : State) (f : Nat) (x : FieldSt) : (setField s f x).realDue = s.realDue := rfl
@[simp] theorem setField_ns (s : State) (f : Nat) (x : FieldSt) : (setField s f x).ns = s.ns := rfl
@[simp] theorem setField_clk (s : State) (f : Nat) (x : FieldSt) : (setField s f x).clk = s.clk := rfl
@[simp] theorem setField_links (s : State) (f : Nat) (x : FieldSt) : (setField s f x).links = s.links := rfl
@[simp] theorem setField_dom (s : State) (f : Nat) (x : FieldSt) : (setField s f x).dom = s.dom := rfl
@[simp] theorem setField_twin (s : State) (f : Nat) (x : FieldSt) : (setField s f x).twin = s.twin := rfl
@[simp] theorem setField_pwr (s : State) (f : Nat) (x : FieldSt) : (setField s f x).pwr = s.pwr := rfl
@[simp] theorem setField_smb (s : State) (f : Nat) (x : FieldSt) : (setField s f x).smb = s.smb := rfl
@[simp] theorem setField_host (s : State) (f : Nat) (x : FieldSt) : (setField s f x).host = s.host := rfl
@[simp] theorem setField_boot (s : State) (f : Nat) (x : FieldSt) : (setField s f x).boot = s.boot := rfl
@[simp] theorem setField_msix (s : State) (f : Nat) (x : FieldSt) : (setField s f x).msix = s.msix := rfl
@[simp] theorem setField_carQ (s : State) (f : Nat) (x : FieldSt) : (setField s f x).carQ = s.carQ := rfl
@[simp] theorem setField_reply (s : State) (f : Nat) (x : FieldSt) : (setField s f x).reply = s.reply := rfl
@[simp] theorem setField_clocksOn (s : State) (f : Nat) (x : FieldSt) : (setField s f x).clocksOn = s.clocksOn := rfl

/-! ## modField -/

@[simp] theorem modField_pending (s : State) (f : Nat) (g : FieldSt → FieldSt) : (modField s f g).pending = s.pending := setField_pending _ _ _
@[simp] theorem modField_freeCtr (s : State) (f : Nat) (g : FieldSt → FieldSt) : (modField s f g).freeCtr = s.freeCtr := setField_freeCtr _ _ _
@[simp] theorem modField_cycle (s : State) (f : Nat) (g : FieldSt → FieldSt) : (modField s f g).cycle = s.cycle := setField_cycle _ _ _
@[simp] theorem modField_mem (s : State) (f : Nat) (g : FieldSt → FieldSt) : (modField s f g).mem = s.mem := setField_mem _ _ _
@[simp] theorem modField_regs (s : State) (f : Nat) (g : FieldSt → FieldSt) : (modField s f g).regs = s.regs := setField_regs _ _ _
@[simp] theorem modField_shadow (s : State) (f : Nat) (g : FieldSt → FieldSt) : (modField s f g).shadow = s.shadow := setField_shadow _ _ _
@[simp] theorem modField_cores (s : State) (f : Nat) (g : FieldSt → FieldSt) : (modField s f g).cores = s.cores := setField_cores _ _ _
@[simp] theorem modField_clus (s : State) (f : Nat) (g : FieldSt → FieldSt) : (modField s f g).clus = s.clus := setField_clus _ _ _
@[simp] theorem modField_gar (s : State) (f : Nat) (g : FieldSt → FieldSt) : (modField s f g).gar = s.gar := setField_gar _ _ _
@[simp] theorem modField_stepBase (s : State) (f : Nat) (g : FieldSt → FieldSt) : (modField s f g).stepBase = s.stepBase := setField_stepBase _ _ _
@[simp] theorem modField_realDue (s : State) (f : Nat) (g : FieldSt → FieldSt) : (modField s f g).realDue = s.realDue := setField_realDue _ _ _
@[simp] theorem modField_ns (s : State) (f : Nat) (g : FieldSt → FieldSt) : (modField s f g).ns = s.ns := setField_ns _ _ _
@[simp] theorem modField_clk (s : State) (f : Nat) (g : FieldSt → FieldSt) : (modField s f g).clk = s.clk := setField_clk _ _ _
@[simp] theorem modField_links (s : State) (f : Nat) (g : FieldSt → FieldSt) : (modField s f g).links = s.links := setField_links _ _ _
@[simp] theorem modField_dom (s : State) (f : Nat) (g : FieldSt → FieldSt) : (modField s f g).dom = s.dom := setField_dom _ _ _
@[simp] theorem modField_twin (s : State) (f : Nat) (g : FieldSt → FieldSt) : (modField s f g).twin = s.twin := setField_twin _ _ _
@[simp] theorem modField_pwr (s : State) (f : Nat) (g : FieldSt → FieldSt) : (modField s f g).pwr = s.pwr := setField_pwr _ _ _
@[simp] theorem modField_smb (s : State) (f : Nat) (g : FieldSt → FieldSt) : (modField s f g).smb = s.smb := setField_smb _ _ _
@[simp] theorem modField_host (s : State) (f : Nat) (g : FieldSt → FieldSt) : (modField s f g).host = s.host := setField_host _ _ _
@[simp] theorem modField_boot (s : State) (f : Nat) (g : FieldSt → FieldSt) : (modField s f g).boot = s.boot := setField_boot _ _ _
@[simp] theorem modField_msix (s : State) (f : Nat) (g : FieldSt → FieldSt) : (modField s f g).msix = s.msix := setField_msix _ _ _
@[simp] theorem modField_carQ (s : State) (f : Nat) (g : FieldSt → FieldSt) : (modField s f g).carQ = s.carQ := setField_carQ _ _ _
@[simp] theorem modField_reply (s : State) (f : Nat) (g : FieldSt → FieldSt) : (modField s f g).reply = s.reply := setField_reply _ _ _
@[simp] theorem modField_clocksOn (s : State) (f : Nat) (g : FieldSt → FieldSt) : (modField s f g).clocksOn = s.clocksOn := setField_clocksOn _ _ _

/-! ## setClu -/

@[simp] theorem setClu_pending (s : State) (k : Nat) (x : CluSt) : (setClu s k x).pending = s.pending := rfl
@[simp] theorem setClu_freeCtr (s : State) (k : Nat) (x : CluSt) : (setClu s k x).freeCtr = s.freeCtr := rfl
@[simp] theorem setClu_cycle (s : State) (k : Nat) (x : CluSt) : (setClu s k x).cycle = s.cycle := rfl
@[simp] theorem setClu_mem (s : State) (k : Nat) (x : CluSt) : (setClu s k x).mem = s.mem := rfl
@[simp] theorem setClu_regs (s : State) (k : Nat) (x : CluSt) : (setClu s k x).regs = s.regs := rfl
@[simp] theorem setClu_shadow (s : State) (k : Nat) (x : CluSt) : (setClu s k x).shadow = s.shadow := rfl
@[simp] theorem setClu_cores (s : State) (k : Nat) (x : CluSt) : (setClu s k x).cores = s.cores := rfl
@[simp] theorem setClu_fields (s : State) (k : Nat) (x : CluSt) : (setClu s k x).fields = s.fields := rfl
@[simp] theorem setClu_gar (s : State) (k : Nat) (x : CluSt) : (setClu s k x).gar = s.gar := rfl
@[simp] theorem setClu_stepBase (s : State) (k : Nat) (x : CluSt) : (setClu s k x).stepBase = s.stepBase := rfl
@[simp] theorem setClu_realDue (s : State) (k : Nat) (x : CluSt) : (setClu s k x).realDue = s.realDue := rfl
@[simp] theorem setClu_ns (s : State) (k : Nat) (x : CluSt) : (setClu s k x).ns = s.ns := rfl
@[simp] theorem setClu_clk (s : State) (k : Nat) (x : CluSt) : (setClu s k x).clk = s.clk := rfl
@[simp] theorem setClu_links (s : State) (k : Nat) (x : CluSt) : (setClu s k x).links = s.links := rfl
@[simp] theorem setClu_dom (s : State) (k : Nat) (x : CluSt) : (setClu s k x).dom = s.dom := rfl
@[simp] theorem setClu_twin (s : State) (k : Nat) (x : CluSt) : (setClu s k x).twin = s.twin := rfl
@[simp] theorem setClu_pwr (s : State) (k : Nat) (x : CluSt) : (setClu s k x).pwr = s.pwr := rfl
@[simp] theorem setClu_smb (s : State) (k : Nat) (x : CluSt) : (setClu s k x).smb = s.smb := rfl
@[simp] theorem setClu_host (s : State) (k : Nat) (x : CluSt) : (setClu s k x).host = s.host := rfl
@[simp] theorem setClu_boot (s : State) (k : Nat) (x : CluSt) : (setClu s k x).boot = s.boot := rfl
@[simp] theorem setClu_msix (s : State) (k : Nat) (x : CluSt) : (setClu s k x).msix = s.msix := rfl
@[simp] theorem setClu_carQ (s : State) (k : Nat) (x : CluSt) : (setClu s k x).carQ = s.carQ := rfl
@[simp] theorem setClu_reply (s : State) (k : Nat) (x : CluSt) : (setClu s k x).reply = s.reply := rfl
@[simp] theorem setClu_clocksOn (s : State) (k : Nat) (x : CluSt) : (setClu s k x).clocksOn = s.clocksOn := rfl

/-! ## modClu -/

@[simp] theorem modClu_pending (s : State) (k : Nat) (g : CluSt → CluSt) : (modClu s k g).pending = s.pending := setClu_pending _ _ _
@[simp] theorem modClu_freeCtr (s : State) (k : Nat) (g : CluSt → CluSt) : (modClu s k g).freeCtr = s.freeCtr := setClu_freeCtr _ _ _
@[simp] theorem modClu_cycle (s : State) (k : Nat) (g : CluSt → CluSt) : (modClu s k g).cycle = s.cycle := setClu_cycle _ _ _
@[simp] theorem modClu_mem (s : State) (k : Nat) (g : CluSt → CluSt) : (modClu s k g).mem = s.mem := setClu_mem _ _ _
@[simp] theorem modClu_regs (s : State) (k : Nat) (g : CluSt → CluSt) : (modClu s k g).regs = s.regs := setClu_regs _ _ _
@[simp] theorem modClu_shadow (s : State) (k : Nat) (g : CluSt → CluSt) : (modClu s k g).shadow = s.shadow := setClu_shadow _ _ _
@[simp] theorem modClu_cores (s : State) (k : Nat) (g : CluSt → CluSt) : (modClu s k g).cores = s.cores := setClu_cores _ _ _
@[simp] theorem modClu_fields (s : State) (k : Nat) (g : CluSt → CluSt) : (modClu s k g).fields = s.fields := setClu_fields _ _ _
@[simp] theorem modClu_gar (s : State) (k : Nat) (g : CluSt → CluSt) : (modClu s k g).gar = s.gar := setClu_gar _ _ _
@[simp] theorem modClu_stepBase (s : State) (k : Nat) (g : CluSt → CluSt) : (modClu s k g).stepBase = s.stepBase := setClu_stepBase _ _ _
@[simp] theorem modClu_realDue (s : State) (k : Nat) (g : CluSt → CluSt) : (modClu s k g).realDue = s.realDue := setClu_realDue _ _ _
@[simp] theorem modClu_ns (s : State) (k : Nat) (g : CluSt → CluSt) : (modClu s k g).ns = s.ns := setClu_ns _ _ _
@[simp] theorem modClu_clk (s : State) (k : Nat) (g : CluSt → CluSt) : (modClu s k g).clk = s.clk := setClu_clk _ _ _
@[simp] theorem modClu_links (s : State) (k : Nat) (g : CluSt → CluSt) : (modClu s k g).links = s.links := setClu_links _ _ _
@[simp] theorem modClu_dom (s : State) (k : Nat) (g : CluSt → CluSt) : (modClu s k g).dom = s.dom := setClu_dom _ _ _
@[simp] theorem modClu_twin (s : State) (k : Nat) (g : CluSt → CluSt) : (modClu s k g).twin = s.twin := setClu_twin _ _ _
@[simp] theorem modClu_pwr (s : State) (k : Nat) (g : CluSt → CluSt) : (modClu s k g).pwr = s.pwr := setClu_pwr _ _ _
@[simp] theorem modClu_smb (s : State) (k : Nat) (g : CluSt → CluSt) : (modClu s k g).smb = s.smb := setClu_smb _ _ _
@[simp] theorem modClu_host (s : State) (k : Nat) (g : CluSt → CluSt) : (modClu s k g).host = s.host := setClu_host _ _ _
@[simp] theorem modClu_boot (s : State) (k : Nat) (g : CluSt → CluSt) : (modClu s k g).boot = s.boot := setClu_boot _ _ _
@[simp] theorem modClu_msix (s : State) (k : Nat) (g : CluSt → CluSt) : (modClu s k g).msix = s.msix := setClu_msix _ _ _
@[simp] theorem modClu_carQ (s : State) (k : Nat) (g : CluSt → CluSt) : (modClu s k g).carQ = s.carQ := setClu_carQ _ _ _
@[simp] theorem modClu_reply (s : State) (k : Nat) (g : CluSt → CluSt) : (modClu s k g).reply = s.reply := setClu_reply _ _ _
@[simp] theorem modClu_clocksOn (s : State) (k : Nat) (g : CluSt → CluSt) : (modClu s k g).clocksOn = s.clocksOn := setClu_clocksOn _ _ _

/-! ## setGar -/

@[simp] theorem setGar_pending (s : State) (n : Nat) (x : GarSt) : (setGar s n x).pending = s.pending := rfl
@[simp] theorem setGar_freeCtr (s : State) (n : Nat) (x : GarSt) : (setGar s n x).freeCtr = s.freeCtr := rfl
@[simp] theorem setGar_cycle (s : State) (n : Nat) (x : GarSt) : (setGar s n x).cycle = s.cycle := rfl
@[simp] theorem setGar_mem (s : State) (n : Nat) (x : GarSt) : (setGar s n x).mem = s.mem := rfl
@[simp] theorem setGar_regs (s : State) (n : Nat) (x : GarSt) : (setGar s n x).regs = s.regs := rfl
@[simp] theorem setGar_shadow (s : State) (n : Nat) (x : GarSt) : (setGar s n x).shadow = s.shadow := rfl
@[simp] theorem setGar_cores (s : State) (n : Nat) (x : GarSt) : (setGar s n x).cores = s.cores := rfl
@[simp] theorem setGar_fields (s : State) (n : Nat) (x : GarSt) : (setGar s n x).fields = s.fields := rfl
@[simp] theorem setGar_clus (s : State) (n : Nat) (x : GarSt) : (setGar s n x).clus = s.clus := rfl
@[simp] theorem setGar_stepBase (s : State) (n : Nat) (x : GarSt) : (setGar s n x).stepBase = s.stepBase := rfl
@[simp] theorem setGar_realDue (s : State) (n : Nat) (x : GarSt) : (setGar s n x).realDue = s.realDue := rfl
@[simp] theorem setGar_ns (s : State) (n : Nat) (x : GarSt) : (setGar s n x).ns = s.ns := rfl
@[simp] theorem setGar_clk (s : State) (n : Nat) (x : GarSt) : (setGar s n x).clk = s.clk := rfl
@[simp] theorem setGar_links (s : State) (n : Nat) (x : GarSt) : (setGar s n x).links = s.links := rfl
@[simp] theorem setGar_dom (s : State) (n : Nat) (x : GarSt) : (setGar s n x).dom = s.dom := rfl
@[simp] theorem setGar_twin (s : State) (n : Nat) (x : GarSt) : (setGar s n x).twin = s.twin := rfl
@[simp] theorem setGar_pwr (s : State) (n : Nat) (x : GarSt) : (setGar s n x).pwr = s.pwr := rfl
@[simp] theorem setGar_smb (s : State) (n : Nat) (x : GarSt) : (setGar s n x).smb = s.smb := rfl
@[simp] theorem setGar_host (s : State) (n : Nat) (x : GarSt) : (setGar s n x).host = s.host := rfl
@[simp] theorem setGar_boot (s : State) (n : Nat) (x : GarSt) : (setGar s n x).boot = s.boot := rfl
@[simp] theorem setGar_msix (s : State) (n : Nat) (x : GarSt) : (setGar s n x).msix = s.msix := rfl
@[simp] theorem setGar_carQ (s : State) (n : Nat) (x : GarSt) : (setGar s n x).carQ = s.carQ := rfl
@[simp] theorem setGar_reply (s : State) (n : Nat) (x : GarSt) : (setGar s n x).reply = s.reply := rfl
@[simp] theorem setGar_clocksOn (s : State) (n : Nat) (x : GarSt) : (setGar s n x).clocksOn = s.clocksOn := rfl

/-! ## answer -/

@[simp] theorem answer_pending (s : State) (st : Status) (d : List Byte) : (answer s st d).pending = s.pending := rfl
@[simp] theorem answer_freeCtr (s : State) (st : Status) (d : List Byte) : (answer s st d).freeCtr = s.freeCtr := rfl
@[simp] theorem answer_cycle (s : State) (st : Status) (d : List Byte) : (answer s st d).cycle = s.cycle := rfl
@[simp] theorem answer_mem (s : State) (st : Status) (d : List Byte) : (answer s st d).mem = s.mem := rfl
@[simp] theorem answer_regs (s : State) (st : Status) (d : List Byte) : (answer s st d).regs = s.regs := rfl
@[simp] theorem answer_shadow (s : State) (st : Status) (d : List Byte) : (answer s st d).shadow = s.shadow := rfl
@[simp] theorem answer_cores (s : State) (st : Status) (d : List Byte) : (answer s st d).cores = s.cores := rfl
@[simp] theorem answer_fields (s : State) (st : Status) (d : List Byte) : (answer s st d).fields = s.fields := rfl
@[simp] theorem answer_clus (s : State) (st : Status) (d : List Byte) : (answer s st d).clus = s.clus := rfl
@[simp] theorem answer_gar (s : State) (st : Status) (d : List Byte) : (answer s st d).gar = s.gar := rfl
@[simp] theorem answer_stepBase (s : State) (st : Status) (d : List Byte) : (answer s st d).stepBase = s.stepBase := rfl
@[simp] theorem answer_realDue (s : State) (st : Status) (d : List Byte) : (answer s st d).realDue = s.realDue := rfl
@[simp] theorem answer_ns (s : State) (st : Status) (d : List Byte) : (answer s st d).ns = s.ns := rfl
@[simp] theorem answer_clk (s : State) (st : Status) (d : List Byte) : (answer s st d).clk = s.clk := rfl
@[simp] theorem answer_links (s : State) (st : Status) (d : List Byte) : (answer s st d).links = s.links := rfl
@[simp] theorem answer_dom (s : State) (st : Status) (d : List Byte) : (answer s st d).dom = s.dom := rfl
@[simp] theorem answer_twin (s : State) (st : Status) (d : List Byte) : (answer s st d).twin = s.twin := rfl
@[simp] theorem answer_pwr (s : State) (st : Status) (d : List Byte) : (answer s st d).pwr = s.pwr := rfl
@[simp] theorem answer_smb (s : State) (st : Status) (d : List Byte) : (answer s st d).smb = s.smb := rfl
@[simp] theorem answer_host (s : State) (st : Status) (d : List Byte) : (answer s st d).host = s.host := rfl
@[simp] theorem answer_boot (s : State) (st : Status) (d : List Byte) : (answer s st d).boot = s.boot := rfl
@[simp] theorem answer_msix (s : State) (st : Status) (d : List Byte) : (answer s st d).msix = s.msix := rfl
@[simp] theorem answer_carQ (s : State) (st : Status) (d : List Byte) : (answer s st d).carQ = s.carQ := rfl
@[simp] theorem answer_clocksOn (s : State) (st : Status) (d : List Byte) : (answer s st d).clocksOn = s.clocksOn := rfl

/-! ## queueCar -/

@[simp] theorem queueCar_pending (s : State) (r : FaultRec) : (queueCar s r).pending = s.pending := rfl
@[simp] theorem queueCar_freeCtr (s : State) (r : FaultRec) : (queueCar s r).freeCtr = s.freeCtr := rfl
@[simp] theorem queueCar_cycle (s : State) (r : FaultRec) : (queueCar s r).cycle = s.cycle := rfl
@[simp] theorem queueCar_mem (s : State) (r : FaultRec) : (queueCar s r).mem = s.mem := rfl
@[simp] theorem queueCar_regs (s : State) (r : FaultRec) : (queueCar s r).regs = s.regs := rfl
@[simp] theorem queueCar_shadow (s : State) (r : FaultRec) : (queueCar s r).shadow = s.shadow := rfl
@[simp] theorem queueCar_cores (s : State) (r : FaultRec) : (queueCar s r).cores = s.cores := rfl
@[simp] theorem queueCar_fields (s : State) (r : FaultRec) : (queueCar s r).fields = s.fields := rfl
@[simp] theorem queueCar_clus (s : State) (r : FaultRec) : (queueCar s r).clus = s.clus := rfl
@[simp] theorem queueCar_gar (s : State) (r : FaultRec) : (queueCar s r).gar = s.gar := rfl
@[simp] theorem queueCar_stepBase (s : State) (r : FaultRec) : (queueCar s r).stepBase = s.stepBase := rfl
@[simp] theorem queueCar_realDue (s : State) (r : FaultRec) : (queueCar s r).realDue = s.realDue := rfl
@[simp] theorem queueCar_ns (s : State) (r : FaultRec) : (queueCar s r).ns = s.ns := rfl
@[simp] theorem queueCar_clk (s : State) (r : FaultRec) : (queueCar s r).clk = s.clk := rfl
@[simp] theorem queueCar_links (s : State) (r : FaultRec) : (queueCar s r).links = s.links := rfl
@[simp] theorem queueCar_dom (s : State) (r : FaultRec) : (queueCar s r).dom = s.dom := rfl
@[simp] theorem queueCar_twin (s : State) (r : FaultRec) : (queueCar s r).twin = s.twin := rfl
@[simp] theorem queueCar_pwr (s : State) (r : FaultRec) : (queueCar s r).pwr = s.pwr := rfl
@[simp] theorem queueCar_smb (s : State) (r : FaultRec) : (queueCar s r).smb = s.smb := rfl
@[simp] theorem queueCar_host (s : State) (r : FaultRec) : (queueCar s r).host = s.host := rfl
@[simp] theorem queueCar_boot (s : State) (r : FaultRec) : (queueCar s r).boot = s.boot := rfl
@[simp] theorem queueCar_msix (s : State) (r : FaultRec) : (queueCar s r).msix = s.msix := rfl
@[simp] theorem queueCar_reply (s : State) (r : FaultRec) : (queueCar s r).reply = s.reply := rfl
@[simp] theorem queueCar_clocksOn (s : State) (r : FaultRec) : (queueCar s r).clocksOn = s.clocksOn := rfl

end Sys2Proof.Machine
end

