-- ==== Sys2Proof/Laws/Access.lean ====
section
/-! SUPPORT. Laws/Access.lean: reading a register, a core, a field, a cluster, a line or a byte after each named update. -/
namespace Sys2Proof.Machine
open Sys2Proof

/-! ## setReg -/

@[simp] theorem getCore_setReg (s : State) (a : Nat) (v : W64) (b : Nat) : getCore (setReg s a v) b = getCore s b := by
  simp only [getCore, setReg_cores]
@[simp] theorem getField_setReg (s : State) (a : Nat) (v : W64) (b : Nat) : getField (setReg s a v) b = getField s b := by
  simp only [getField, setReg_fields]
@[simp] theorem getClu_setReg (s : State) (a : Nat) (v : W64) (b : Nat) : getClu (setReg s a v) b = getClu s b := by
  simp only [getClu, setReg_clus]
@[simp] theorem getGar_setReg (s : State) (a : Nat) (v : W64) (b : Nat) : getGar (setReg s a v) b = getGar s b := by
  simp only [getGar, setReg_gar]
@[simp] theorem rdByte_setReg (s : State) (a : Nat) (v : W64) (b : Nat) : rdByte (setReg s a v) b = rdByte s b := by
  simp only [rdByte, setReg_mem]

/-! ## setF -/

@[simp] theorem getCore_setF (s : State) (a hi lo v : Nat) (b : Nat) : getCore (setF s a hi lo v) b = getCore s b := by
  simp only [getCore, setF_cores]
@[simp] theorem getField_setF (s : State) (a hi lo v : Nat) (b : Nat) : getField (setF s a hi lo v) b = getField s b := by
  simp only [getField, setF_fields]
@[simp] theorem getClu_setF (s : State) (a hi lo v : Nat) (b : Nat) : getClu (setF s a hi lo v) b = getClu s b := by
  simp only [getClu, setF_clus]
@[simp] theorem getGar_setF (s : State) (a hi lo v : Nat) (b : Nat) : getGar (setF s a hi lo v) b = getGar s b := by
  simp only [getGar, setF_gar]
@[simp] theorem rdByte_setF (s : State) (a hi lo v : Nat) (b : Nat) : rdByte (setF s a hi lo v) b = rdByte s b := by
  simp only [rdByte, setF_mem]

/-! ## addF -/

@[simp] theorem getCore_addF (s : State) (a hi lo n : Nat) (b : Nat) : getCore (addF s a hi lo n) b = getCore s b := by
  simp only [getCore, addF_cores]
@[simp] theorem getField_addF (s : State) (a hi lo n : Nat) (b : Nat) : getField (addF s a hi lo n) b = getField s b := by
  simp only [getField, addF_fields]
@[simp] theorem getClu_addF (s : State) (a hi lo n : Nat) (b : Nat) : getClu (addF s a hi lo n) b = getClu s b := by
  simp only [getClu, addF_clus]
@[simp] theorem getGar_addF (s : State) (a hi lo n : Nat) (b : Nat) : getGar (addF s a hi lo n) b = getGar s b := by
  simp only [getGar, addF_gar]
@[simp] theorem rdByte_addF (s : State) (a hi lo n : Nat) (b : Nat) : rdByte (addF s a hi lo n) b = rdByte s b := by
  simp only [rdByte, addF_mem]

/-! ## satF -/

@[simp] theorem getCore_satF (s : State) (a hi lo n : Nat) (b : Nat) : getCore (satF s a hi lo n) b = getCore s b := by
  simp only [getCore, satF_cores]
@[simp] theorem getField_satF (s : State) (a hi lo n : Nat) (b : Nat) : getField (satF s a hi lo n) b = getField s b := by
  simp only [getField, satF_fields]
@[simp] theorem getClu_satF (s : State) (a hi lo n : Nat) (b : Nat) : getClu (satF s a hi lo n) b = getClu s b := by
  simp only [getClu, satF_clus]
@[simp] theorem getGar_satF (s : State) (a hi lo n : Nat) (b : Nat) : getGar (satF s a hi lo n) b = getGar s b := by
  simp only [getGar, satF_gar]
@[simp] theorem rdByte_satF (s : State) (a hi lo n : Nat) (b : Nat) : rdByte (satF s a hi lo n) b = rdByte s b := by
  simp only [rdByte, satF_mem]

/-! ## setArith -/

@[simp] theorem getCore_setArith (s : State) (c : Nat) (f : ArithFlags) (b : Nat) : getCore (setArith s c f) b = getCore s b := by
  simp only [getCore, setArith_cores]
@[simp] theorem getField_setArith (s : State) (c : Nat) (f : ArithFlags) (b : Nat) : getField (setArith s c f) b = getField s b := by
  simp only [getField, setArith_fields]
@[simp] theorem getClu_setArith (s : State) (c : Nat) (f : ArithFlags) (b : Nat) : getClu (setArith s c f) b = getClu s b := by
  simp only [getClu, setArith_clus]
@[simp] theorem getGar_setArith (s : State) (c : Nat) (f : ArithFlags) (b : Nat) : getGar (setArith s c f) b = getGar s b := by
  simp only [getGar, setArith_gar]
@[simp] theorem rdByte_setArith (s : State) (c : Nat) (f : ArithFlags) (b : Nat) : rdByte (setArith s c f) b = rdByte s b := by
  simp only [rdByte, setArith_mem]

/-! ## setCtr -/

@[simp] theorem getCore_setCtr (s : State) (c i : Nat) (v : BitVec 16) (b : Nat) : getCore (setCtr s c i v) b = getCore s b := by
  simp only [getCore, setCtr_cores]
@[simp] theorem getField_setCtr (s : State) (c i : Nat) (v : BitVec 16) (b : Nat) : getField (setCtr s c i v) b = getField s b := by
  simp only [getField, setCtr_fields]
@[simp] theorem getClu_setCtr (s : State) (c i : Nat) (v : BitVec 16) (b : Nat) : getClu (setCtr s c i v) b = getClu s b := by
  simp only [getClu, setCtr_clus]
@[simp] theorem getGar_setCtr (s : State) (c i : Nat) (v : BitVec 16) (b : Nat) : getGar (setCtr s c i v) b = getGar s b := by
  simp only [getGar, setCtr_gar]
@[simp] theorem rdByte_setCtr (s : State) (c i : Nat) (v : BitVec 16) (b : Nat) : rdByte (setCtr s c i v) b = rdByte s b := by
  simp only [rdByte, setCtr_mem]

/-! ## wrByte -/

@[simp] theorem getReg_wrByte (s : State) (a : Nat) (b : Byte) (j : Nat) : getReg (wrByte s a b) j = getReg s j := by
  simp only [getReg, wrByte_regs]
@[simp] theorem getCore_wrByte (s : State) (a : Nat) (b : Byte) (j : Nat) : getCore (wrByte s a b) j = getCore s j := by
  simp only [getCore, wrByte_cores]
@[simp] theorem getField_wrByte (s : State) (a : Nat) (b : Byte) (j : Nat) : getField (wrByte s a b) j = getField s j := by
  simp only [getField, wrByte_fields]
@[simp] theorem getClu_wrByte (s : State) (a : Nat) (b : Byte) (j : Nat) : getClu (wrByte s a b) j = getClu s j := by
  simp only [getClu, wrByte_clus]
@[simp] theorem getGar_wrByte (s : State) (a : Nat) (b : Byte) (j : Nat) : getGar (wrByte s a b) j = getGar s j := by
  simp only [getGar, wrByte_gar]

/-! ## setCore -/

@[simp] theorem getReg_setCore (s : State) (c : Nat) (x : CoreSt) (b : Nat) : getReg (setCore s c x) b = getReg s b := by
  simp only [getReg, setCore_regs]
@[simp] theorem getField_setCore (s : State) (c : Nat) (x : CoreSt) (b : Nat) : getField (setCore s c x) b = getField s b := by
  simp only [getField, setCore_fields]
@[simp] theorem getClu_setCore (s : State) (c : Nat) (x : CoreSt) (b : Nat) : getClu (setCore s c x) b = getClu s b := by
  simp only [getClu, setCore_clus]
@[simp] theorem getGar_setCore (s : State) (c : Nat) (x : CoreSt) (b : Nat) : getGar (setCore s c x) b = getGar s b := by
  simp only [getGar, setCore_gar]
@[simp] theorem rdByte_setCore (s : State) (c : Nat) (x : CoreSt) (b : Nat) : rdByte (setCore s c x) b = rdByte s b := by
  simp only [rdByte, setCore_mem]

/-! ## modCore -/

@[simp] theorem getReg_modCore (s : State) (c : Nat) (f : CoreSt → CoreSt) (b : Nat) : getReg (modCore s c f) b = getReg s b := by
  simp only [getReg, modCore_regs]
@[simp] theorem getField_modCore (s : State) (c : Nat) (f : CoreSt → CoreSt) (b : Nat) : getField (modCore s c f) b = getField s b := by
  simp only [getField, modCore_fields]
@[simp] theorem getClu_modCore (s : State) (c : Nat) (f : CoreSt → CoreSt) (b : Nat) : getClu (modCore s c f) b = getClu s b := by
  simp only [getClu, modCore_clus]
@[simp] theorem getGar_modCore (s : State) (c : Nat) (f : CoreSt → CoreSt) (b : Nat) : getGar (modCore s c f) b = getGar s b := by
  simp only [getGar, modCore_gar]
@[simp] theorem rdByte_modCore (s : State) (c : Nat) (f : CoreSt → CoreSt) (b : Nat) : rdByte (modCore s c f) b = rdByte s b := by
  simp only [rdByte, modCore_mem]

/-! ## ctrBump -/

@[simp] theorem getReg_ctrBump (s : State) (c i : Nat) (d : Int) (b : Nat) : getReg (ctrBump s c i d) b = getReg s b := by
  simp only [getReg, ctrBump_regs]
@[simp] theorem getField_ctrBump (s : State) (c i : Nat) (d : Int) (b : Nat) : getField (ctrBump s c i d) b = getField s b := by
  simp only [getField, ctrBump_fields]
@[simp] theorem getClu_ctrBump (s : State) (c i : Nat) (d : Int) (b : Nat) : getClu (ctrBump s c i d) b = getClu s b := by
  simp only [getClu, ctrBump_clus]
@[simp] theorem getGar_ctrBump (s : State) (c i : Nat) (d : Int) (b : Nat) : getGar (ctrBump s c i d) b = getGar s b := by
  simp only [getGar, ctrBump_gar]
@[simp] theorem rdByte_ctrBump (s : State) (c i : Nat) (d : Int) (b : Nat) : rdByte (ctrBump s c i d) b = rdByte s b := by
  simp only [rdByte, ctrBump_mem]

/-! ## setField -/

@[simp] theorem getReg_setField (s : State) (f : Nat) (x : FieldSt) (b : Nat) : getReg (setField s f x) b = getReg s b := by
  simp only [getReg, setField_regs]
@[simp] theorem getCore_setField (s : State) (f : Nat) (x : FieldSt) (b : Nat) : getCore (setField s f x) b = getCore s b := by
  simp only [getCore, setField_cores]
@[simp] theorem getClu_setField (s : State) (f : Nat) (x : FieldSt) (b : Nat) : getClu (setField s f x) b = getClu s b := by
  simp only [getClu, setField_clus]
@[simp] theorem getGar_setField (s : State) (f : Nat) (x : FieldSt) (b : Nat) : getGar (setField s f x) b = getGar s b := by
  simp only [getGar, setField_gar]
@[simp] theorem rdByte_setField (s : State) (f : Nat) (x : FieldSt) (b : Nat) : rdByte (setField s f x) b = rdByte s b := by
  simp only [rdByte, setField_mem]

/-! ## modField -/

@[simp] theorem getReg_modField (s : State) (f : Nat) (g : FieldSt → FieldSt) (b : Nat) : getReg (modField s f g) b = getReg s b := by
  simp only [getReg, modField_regs]
@[simp] theorem getCore_modField (s : State) (f : Nat) (g : FieldSt → FieldSt) (b : Nat) : getCore (modField s f g) b = getCore s b := by
  simp only [getCore, modField_cores]
@[simp] theorem getClu_modField (s : State) (f : Nat) (g : FieldSt → FieldSt) (b : Nat) : getClu (modField s f g) b = getClu s b := by
  simp only [getClu, modField_clus]
@[simp] theorem getGar_modField (s : State) (f : Nat) (g : FieldSt → FieldSt) (b : Nat) : getGar (modField s f g) b = getGar s b := by
  simp only [getGar, modField_gar]
@[simp] theorem rdByte_modField (s : State) (f : Nat) (g : FieldSt → FieldSt) (b : Nat) : rdByte (modField s f g) b = rdByte s b := by
  simp only [rdByte, modField_mem]

/-! ## setClu -/

@[simp] theorem getReg_setClu (s : State) (k : Nat) (x : CluSt) (b : Nat) : getReg (setClu s k x) b = getReg s b := by
  simp only [getReg, setClu_regs]
@[simp] theorem getCore_setClu (s : State) (k : Nat) (x : CluSt) (b : Nat) : getCore (setClu s k x) b = getCore s b := by
  simp only [getCore, setClu_cores]
@[simp] theorem getField_setClu (s : State) (k : Nat) (x : CluSt) (b : Nat) : getField (setClu s k x) b = getField s b := by
  simp only [getField, setClu_fields]
@[simp] theorem getGar_setClu (s : State) (k : Nat) (x : CluSt) (b : Nat) : getGar (setClu s k x) b = getGar s b := by
  simp only [getGar, setClu_gar]
@[simp] theorem rdByte_setClu (s : State) (k : Nat) (x : CluSt) (b : Nat) : rdByte (setClu s k x) b = rdByte s b := by
  simp only [rdByte, setClu_mem]

/-! ## modClu -/

@[simp] theorem getReg_modClu (s : State) (k : Nat) (g : CluSt → CluSt) (b : Nat) : getReg (modClu s k g) b = getReg s b := by
  simp only [getReg, modClu_regs]
@[simp] theorem getCore_modClu (s : State) (k : Nat) (g : CluSt → CluSt) (b : Nat) : getCore (modClu s k g) b = getCore s b := by
  simp only [getCore, modClu_cores]
@[simp] theorem getField_modClu (s : State) (k : Nat) (g : CluSt → CluSt) (b : Nat) : getField (modClu s k g) b = getField s b := by
  simp only [getField, modClu_fields]
@[simp] theorem getGar_modClu (s : State) (k : Nat) (g : CluSt → CluSt) (b : Nat) : getGar (modClu s k g) b = getGar s b := by
  simp only [getGar, modClu_gar]
@[simp] theorem rdByte_modClu (s : State) (k : Nat) (g : CluSt → CluSt) (b : Nat) : rdByte (modClu s k g) b = rdByte s b := by
  simp only [rdByte, modClu_mem]

/-! ## setGar -/

@[simp] theorem getReg_setGar (s : State) (n : Nat) (x : GarSt) (b : Nat) : getReg (setGar s n x) b = getReg s b := by
  simp only [getReg, setGar_regs]
@[simp] theorem getCore_setGar (s : State) (n : Nat) (x : GarSt) (b : Nat) : getCore (setGar s n x) b = getCore s b := by
  simp only [getCore, setGar_cores]
@[simp] theorem getField_setGar (s : State) (n : Nat) (x : GarSt) (b : Nat) : getField (setGar s n x) b = getField s b := by
  simp only [getField, setGar_fields]
@[simp] theorem getClu_setGar (s : State) (n : Nat) (x : GarSt) (b : Nat) : getClu (setGar s n x) b = getClu s b := by
  simp only [getClu, setGar_clus]
@[simp] theorem rdByte_setGar (s : State) (n : Nat) (x : GarSt) (b : Nat) : rdByte (setGar s n x) b = rdByte s b := by
  simp only [rdByte, setGar_mem]

/-! ## answer -/

@[simp] theorem getReg_answer (s : State) (st : Status) (d : List Byte) (b : Nat) : getReg (answer s st d) b = getReg s b := by
  simp only [getReg, answer_regs]
@[simp] theorem getCore_answer (s : State) (st : Status) (d : List Byte) (b : Nat) : getCore (answer s st d) b = getCore s b := by
  simp only [getCore, answer_cores]
@[simp] theorem getField_answer (s : State) (st : Status) (d : List Byte) (b : Nat) : getField (answer s st d) b = getField s b := by
  simp only [getField, answer_fields]
@[simp] theorem getClu_answer (s : State) (st : Status) (d : List Byte) (b : Nat) : getClu (answer s st d) b = getClu s b := by
  simp only [getClu, answer_clus]
@[simp] theorem getGar_answer (s : State) (st : Status) (d : List Byte) (b : Nat) : getGar (answer s st d) b = getGar s b := by
  simp only [getGar, answer_gar]
@[simp] theorem rdByte_answer (s : State) (st : Status) (d : List Byte) (b : Nat) : rdByte (answer s st d) b = rdByte s b := by
  simp only [rdByte, answer_mem]

/-! ## queueCar -/

@[simp] theorem getReg_queueCar (s : State) (r : FaultRec) (b : Nat) : getReg (queueCar s r) b = getReg s b := by
  simp only [getReg, queueCar_regs]
@[simp] theorem getCore_queueCar (s : State) (r : FaultRec) (b : Nat) : getCore (queueCar s r) b = getCore s b := by
  simp only [getCore, queueCar_cores]
@[simp] theorem getField_queueCar (s : State) (r : FaultRec) (b : Nat) : getField (queueCar s r) b = getField s b := by
  simp only [getField, queueCar_fields]
@[simp] theorem getClu_queueCar (s : State) (r : FaultRec) (b : Nat) : getClu (queueCar s r) b = getClu s b := by
  simp only [getClu, queueCar_clus]
@[simp] theorem getGar_queueCar (s : State) (r : FaultRec) (b : Nat) : getGar (queueCar s r) b = getGar s b := by
  simp only [getGar, queueCar_gar]
@[simp] theorem rdByte_queueCar (s : State) (r : FaultRec) (b : Nat) : rdByte (queueCar s r) b = rdByte s b := by
  simp only [rdByte, queueCar_mem]

/-! ## The same table -/

@[simp] theorem getReg_setReg_self (s : State) (a : Nat) (v : W64) : getReg (setReg s a v) a = v := by
  simp only [getReg, setReg, smFind_put_self]
  split <;> simp_all

theorem getReg_setReg_ne (s : State) {a b : Nat} (v : W64) (h : b ≠ a) : getReg (setReg s a v) b = getReg s b := by
  simp only [getReg, setReg, smFind_put_ne _ _ h]

@[simp] theorem getCore_setCore_self (s : State) (c : Nat) (x : CoreSt) : getCore (setCore s c x) c = x := by
  simp only [getCore, setCore, smGet_put_self]

theorem getCore_setCore_ne (s : State) {c d : Nat} (x : CoreSt) (h : d ≠ c) : getCore (setCore s c x) d = getCore s d := by
  simp only [getCore, setCore, smGet_put_ne _ _ _ h]

@[simp] theorem getCore_modCore_self (s : State) (c : Nat) (f : CoreSt → CoreSt) : getCore (modCore s c f) c = f (getCore s c) :=
  getCore_setCore_self _ _ _

theorem getCore_modCore_ne (s : State) {c d : Nat} (f : CoreSt → CoreSt) (h : d ≠ c) : getCore (modCore s c f) d = getCore s d :=
  getCore_setCore_ne _ _ h

@[simp] theorem getField_setField_self (s : State) (f : Nat) (x : FieldSt) : getField (setField s f x) f = x := by
  simp only [getField, setField, smGet_put_self]

theorem getField_setField_ne (s : State) {f g : Nat} (x : FieldSt) (h : g ≠ f) : getField (setField s f x) g = getField s g := by
  simp only [getField, setField, smGet_put_ne _ _ _ h]

@[simp] theorem getField_modField_self (s : State) (f : Nat) (g : FieldSt → FieldSt) :
    getField (modField s f g) f = g (getField s f) := getField_setField_self _ _ _

theorem getField_modField_ne (s : State) {f j : Nat} (g : FieldSt → FieldSt) (h : j ≠ f) :
    getField (modField s f g) j = getField s j := getField_setField_ne _ _ h

@[simp] theorem getClu_setClu_self (s : State) (k : Nat) (x : CluSt) : getClu (setClu s k x) k = x := by
  simp only [getClu, setClu, smGet_put_self]

theorem getClu_setClu_ne (s : State) {k j : Nat} (x : CluSt) (h : j ≠ k) : getClu (setClu s k x) j = getClu s j := by
  simp only [getClu, setClu, smGet_put_ne _ _ _ h]

@[simp] theorem getClu_modClu_self (s : State) (k : Nat) (g : CluSt → CluSt) : getClu (modClu s k g) k = g (getClu s k) :=
  getClu_setClu_self _ _ _

theorem getClu_modClu_ne (s : State) {k j : Nat} (g : CluSt → CluSt) (h : j ≠ k) : getClu (modClu s k g) j = getClu s j :=
  getClu_setClu_ne _ _ h

@[simp] theorem getGar_setGar_self (s : State) (n : Nat) (x : GarSt) : getGar (setGar s n x) n = x := by
  simp only [getGar, setGar, smGet_put_self]

theorem getGar_setGar_ne (s : State) {n j : Nat} (x : GarSt) (h : j ≠ n) : getGar (setGar s n x) j = getGar s j := by
  simp only [getGar, setGar, smGet_put_ne _ _ _ h]

@[simp] theorem rdByte_wrByte_self (s : State) (a : Nat) (b : Byte) : rdByte (wrByte s a b) a = b := by
  simp only [rdByte, wrByte, smGet_put_self]

theorem rdByte_wrByte_ne (s : State) {a j : Nat} (b : Byte) (h : j ≠ a) : rdByte (wrByte s a b) j = rdByte s j := by
  simp only [rdByte, wrByte, smGet_put_ne _ _ _ h]

end Sys2Proof.Machine
end

