-- ==== Sys2Proof/Laws/Bits.lean ====
section
/-! SUPPORT. Laws/Bits.lean: bit fields of numbers and of registers: a field written is read back, and no other field changes. -/
namespace Sys2Proof.Machine
open Sys2Proof

theorem pow_hi {hi lo : Nat} (h : lo ≤ hi) : 2 ^ (hi + 1) = 2 ^ lo * 2 ^ (hi + 1 - lo) := by
  rw [← Nat.pow_add]
  congr 1
  omega

/-- The bits from lo on, after setting bits [hi:lo]. -/
theorem setBitsOf_div_lo {hi lo : Nat} (x v : Nat) (h : lo ≤ hi) :
    setBitsOf x hi lo v / 2 ^ lo = x / 2 ^ (hi + 1) * 2 ^ (hi + 1 - lo) + v % 2 ^ (hi + 1 - lo) := by
  unfold setBitsOf
  have hx : x % 2 ^ lo < 2 ^ lo := Nat.mod_lt _ (Nat.two_pow_pos lo)
  have e : x / 2 ^ (hi + 1) * 2 ^ (hi + 1) + v % 2 ^ (hi + 1 - lo) * 2 ^ lo + x % 2 ^ lo =
      x % 2 ^ lo + 2 ^ lo * (x / 2 ^ (hi + 1) * 2 ^ (hi + 1 - lo) + v % 2 ^ (hi + 1 - lo)) := by
    generalize x / 2 ^ (hi + 1) = q
    rw [Nat.mul_add, Nat.mul_comm (2 ^ lo) (v % _), pow_hi h, Nat.mul_left_comm q]
    omega
  rw [e, Nat.add_mul_div_left _ _ (Nat.two_pow_pos lo), Nat.div_eq_of_lt hx, Nat.zero_add]

/-- Bits [hi:lo] after setting them. -/
theorem bitsOf_setBitsOf_self {hi lo : Nat} (x v : Nat) (h : lo ≤ hi) : bitsOf (setBitsOf x hi lo v) hi lo = v % 2 ^ (hi + 1 - lo) := by
  unfold bitsOf
  rw [setBitsOf_div_lo x v h, Nat.mul_comm, Nat.mul_add_mod, Nat.mod_mod]

/-- The bits above hi are as before. -/
theorem setBitsOf_div_hi {hi lo : Nat} (x v : Nat) (h : lo ≤ hi) : setBitsOf x hi lo v / 2 ^ (hi + 1) = x / 2 ^ (hi + 1) := by
  have hv : v % 2 ^ (hi + 1 - lo) < 2 ^ (hi + 1 - lo) := Nat.mod_lt _ (Nat.two_pow_pos _)
  rw [pow_hi h, ← Nat.div_div_eq_div_mul, setBitsOf_div_lo x v h, Nat.mul_comm, Nat.mul_add_div (Nat.two_pow_pos _),
    Nat.div_eq_of_lt hv, Nat.add_zero, pow_hi h]

/-- The bits below lo are as before. -/
theorem setBitsOf_mod_lo {hi lo : Nat} (x v : Nat) (h : lo ≤ hi) : setBitsOf x hi lo v % 2 ^ lo = x % 2 ^ lo := by
  unfold setBitsOf
  rw [pow_hi h, Nat.mul_comm (2 ^ lo) (2 ^ (hi + 1 - lo)), ← Nat.mul_assoc, ← Nat.add_mul, Nat.mul_comm _ (2 ^ lo),
    Nat.mul_add_mod, Nat.mod_mod]

/-- Bits above the set ones. -/
theorem bitsOf_setBitsOf_above {hi lo h2 l2 : Nat} (x v : Nat) (h : lo ≤ hi) (hl : hi < l2) :
    bitsOf (setBitsOf x hi lo v) h2 l2 = bitsOf x h2 l2 := by
  unfold bitsOf
  have e : 2 ^ l2 = 2 ^ (hi + 1) * 2 ^ (l2 - (hi + 1)) := by
    rw [← Nat.pow_add]
    congr 1
    omega
  rw [e, ← Nat.div_div_eq_div_mul, ← Nat.div_div_eq_div_mul, setBitsOf_div_hi x v h]

theorem bitsOf_of_mod {x y h2 l2 lo : Nat} (hl : h2 < lo) (e : x % 2 ^ lo = y % 2 ^ lo) : bitsOf x h2 l2 = bitsOf y h2 l2 := by
  have key : ∀ z : Nat, l2 ≤ h2 → bitsOf z h2 l2 = z % 2 ^ lo % 2 ^ (h2 + 1) / 2 ^ l2 := by
    intro z hz
    rw [Nat.mod_mod_of_dvd z (Nat.pow_dvd_pow 2 (by omega : h2 + 1 ≤ lo)), pow_hi hz, Nat.mod_mul_right_div_self]
    rfl
  by_cases hz : l2 ≤ h2
  · rw [key x hz, key y hz, e]
  · have : h2 + 1 - l2 = 0 := by omega
    simp [bitsOf, this, Nat.mod_one]

/-- Bits below the set ones. -/
theorem bitsOf_setBitsOf_below {hi lo h2 l2 : Nat} (x v : Nat) (h : lo ≤ hi) (hl : h2 < lo) :
    bitsOf (setBitsOf x hi lo v) h2 l2 = bitsOf x h2 l2 := bitsOf_of_mod hl (setBitsOf_mod_lo x v h)

theorem setBitsOf_lt {hi lo n : Nat} (x v : Nat) (h : lo ≤ hi) (hn : hi < n) (hx : x < 2 ^ n) : setBitsOf x hi lo v < 2 ^ n := by
  have e : 2 ^ n = 2 ^ (hi + 1) * 2 ^ (n - (hi + 1)) := by
    rw [← Nat.pow_add]
    congr 1
    omega
  rw [e, Nat.mul_comm] at hx ⊢
  rw [← Nat.div_lt_iff_lt_mul (Nat.two_pow_pos _), setBitsOf_div_hi x v h]
  exact (Nat.div_lt_iff_lt_mul (Nat.two_pow_pos _)).2 hx

/-! ## Fields of registers -/

theorem toNat_setF (s : State) (a hi lo v : Nat) (h : lo ≤ hi) (h64 : hi < 64) :
    (getReg (setF s a hi lo v) a).toNat = setBitsOf (getReg s a).toNat hi lo v := by
  unfold setF
  rw [getReg_setReg_self, BitVec.toNat_ofNat, Nat.mod_eq_of_lt (setBitsOf_lt _ _ h h64 (getReg s a).isLt)]

/-- A field written is read back. -/
theorem getF_setF_self (s : State) (a hi lo v : Nat) (h : lo ≤ hi) (h64 : hi < 64) :
    getF (setF s a hi lo v) a hi lo = v % 2 ^ (hi + 1 - lo) := by
  unfold getF
  rw [toNat_setF s a hi lo v h h64, bitsOf_setBitsOf_self _ _ h]

/-- A field beside the one written is as before. -/
theorem getF_setF_other (s : State) (a hi lo v h2 l2 : Nat) (h : lo ≤ hi) (h64 : hi < 64) (hd : hi < l2 ∨ h2 < lo) :
    getF (setF s a hi lo v) a h2 l2 = getF s a h2 l2 := by
  unfold getF
  rw [toNat_setF s a hi lo v h h64]
  rcases hd with hd | hd
  · exact bitsOf_setBitsOf_above _ _ h hd
  · exact bitsOf_setBitsOf_below _ _ h hd

/-- A field of another register is as before. -/
theorem getF_setF_ne (s : State) {a b : Nat} (hi lo v h2 l2 : Nat) (h : b ≠ a) : getF (setF s a hi lo v) b h2 l2 = getF s b h2 l2 := by
  unfold getF setF
  rw [getReg_setReg_ne s _ h]

/-- A register other than the one written is as before. -/
theorem getReg_setF_ne (s : State) {a b : Nat} (hi lo v : Nat) (h : b ≠ a) : getReg (setF s a hi lo v) b = getReg s b :=
  getReg_setReg_ne s _ h

theorem bitOf_eq (x i : Nat) : bitOf x i = decide (bitsOf x i i = 1) := by
  unfold bitOf bitsOf
  have : i + 1 - i = 1 := by omega
  rw [this, Nat.pow_one]

theorem getB_eq (s : State) (a i : Nat) : getB s a i = decide (getF s a i i = 1) := bitOf_eq _ _

end Sys2Proof.Machine
end

