-- ==== Sys2Proof/Laws/Memory.lean ====
section
/-! SUPPORT. Laws/Memory.lean: what the memory operations change: bytes written are read back, every other byte is as before,
nothing but the memory changes, and the canonical form is kept. -/
namespace Sys2Proof.Machine
open Sys2Proof

/-- An update that changes nothing but the memory keeps every other field. -/
theorem wrBytes_eq (s : State) (a : Nat) (l : List Byte) : wrBytes s a l = { s with mem := (wrBytes s a l).mem } := by
  induction l generalizing s a with
  | nil => rfl
  | cons b l ih =>
    have h := ih (wrByte s a b) (a + 1)
    simp only [wrBytes]
    rw [h]
    rfl

theorem wrNat_eq (s : State) (a n x : Nat) : wrNat s a n x = { s with mem := (wrNat s a n x).mem } := wrBytes_eq _ _ _

/-- Bytes before or after the bytes written are as before. -/
theorem rdByte_wrBytes_out (s : State) (a b : Nat) (l : List Byte) (h : b < a ∨ a + l.length ≤ b) :
    rdByte (wrBytes s a l) b = rdByte s b := by
  induction l generalizing s a with
  | nil => rfl
  | cons x l ih =>
    simp only [List.length_cons] at h
    simp only [wrBytes]
    rw [ih (wrByte s a x) (a + 1) (by omega), rdByte_wrByte_ne s x (by omega)]

/-- Bytes written are read back. -/
theorem rdByte_wrBytes_in (s : State) (a i : Nat) (l : List Byte) (h : i < l.length) :
    rdByte (wrBytes s a l) (a + i) = l[i] := by
  induction l generalizing s a i with
  | nil => simp at h
  | cons x l ih =>
    cases i with
    | zero =>
      simp only [wrBytes, Nat.add_zero, List.getElem_cons_zero]
      rw [rdByte_wrBytes_out _ _ _ _ (.inl (by omega)), rdByte_wrByte_self]
    | succ i =>
      simp only [List.length_cons] at h
      have := ih (wrByte s a x) (a + 1) i (by omega)
      simp only [wrBytes, List.getElem_cons_succ]
      rw [← this]
      congr 1
      omega

theorem length_rdBytes (s : State) (a n : Nat) : (rdBytes s a n).length = n := by
  induction n generalizing a with
  | zero => rfl
  | succ n ih => simp [rdBytes, ih]

theorem getElem_rdBytes (s : State) (a n i : Nat) (h : i < (rdBytes s a n).length) : (rdBytes s a n)[i] = rdByte s (a + i) := by
  induction n generalizing a i with
  | zero => simp [rdBytes] at h
  | succ n ih =>
    cases i with
    | zero => simp [rdBytes]
    | succ i =>
      simp only [rdBytes, List.getElem_cons_succ]
      rw [ih]
      congr 1
      omega

/-- Reading back what has been written. -/
theorem rdBytes_wrBytes (s : State) (a : Nat) (l : List Byte) : rdBytes (wrBytes s a l) a l.length = l := by
  apply List.ext_getElem (length_rdBytes _ _ _)
  intro i h1 h2
  rw [getElem_rdBytes, rdByte_wrBytes_in _ _ _ _ h2]

theorem rdBytes_congr {s t : State} {a n : Nat} (h : ∀ b, a ≤ b → b < a + n → rdByte t b = rdByte s b) :
    rdBytes t a n = rdBytes s a n := by
  apply List.ext_getElem (by rw [length_rdBytes, length_rdBytes])
  intro i h1 h2
  rw [length_rdBytes] at h1
  rw [getElem_rdBytes, getElem_rdBytes, h _ (by omega) (by omega)]

theorem length_natLe (n x : Nat) : (natLe n x).length = n := by
  induction n generalizing x with
  | zero => rfl
  | succ n ih => simp [natLe, ih]

theorem leNat_natLe (n x : Nat) : leNat (natLe n x) = x % 256 ^ n := by
  induction n generalizing x with
  | zero => simp [natLe, leNat, Nat.mod_one]
  | succ n ih =>
    simp only [natLe, leNat, ih, BitVec.toNat_ofNat]
    rw [Nat.pow_succ 256, Nat.mul_comm (256 ^ n) 256, Nat.mod_mul]

/-- A number written is read back. -/
theorem rdNat_wrNat (s : State) (a n x : Nat) : rdNat (wrNat s a n x) a n = x % 256 ^ n := by
  have := rdBytes_wrBytes s a (natLe n x)
  rw [length_natLe] at this
  unfold rdNat wrNat
  rw [this, leNat_natLe]

theorem rdByte_wrNat_out (s : State) (a n x b : Nat) (h : b < a ∨ a + n ≤ b) : rdByte (wrNat s a n x) b = rdByte s b :=
  rdByte_wrBytes_out _ _ _ _ (by rw [length_natLe]; exact h)

/-! ## The canonical form -/

/-- Writing a byte keeps the canonical form. -/
theorem wf_wrByte (s : State) (a : Nat) (b : Byte) (h : Memory.wf s.mem = true) : Memory.wf (wrByte s a b).mem = true :=
  smWf_put (fun _ => Memory.empty) a b s.mem h

/-- Writing bytes keeps it. -/
theorem wf_wrBytes (s : State) (a : Nat) (l : List Byte) (h : Memory.wf s.mem = true) : Memory.wf (wrBytes s a l).mem = true := by
  induction l generalizing s a with
  | nil => exact h
  | cons b l ih => exact ih _ _ (wf_wrByte s a b h)

/-- Writing a number keeps it. -/
theorem wf_wrNat (s : State) (a n x : Nat) (h : Memory.wf s.mem = true) : Memory.wf (wrNat s a n x).mem = true :=
  wf_wrBytes _ _ _ h

theorem wf_foldl {β : Type} (f : State → β → State) (hf : ∀ s x, Memory.wf s.mem = true → Memory.wf (f s x).mem = true)
    (l : List β) (s : State) (h : Memory.wf s.mem = true) : Memory.wf (l.foldl f s).mem = true := by
  induction l generalizing s with
  | nil => exact h
  | cons x l ih => exact ih _ (hf _ _ h)

/-- Writing a row keeps it. -/
theorem wf_wrRowRaw (s : State) (c row : Nat) (bytes : List (Option Byte)) (h : Memory.wf s.mem = true) :
    Memory.wf (wrRowRaw s c row bytes).mem = true := by
  refine wf_foldl _ (fun s b hs => ?_) _ s h
  split
  · exact wf_wrByte _ _ _ hs
  · exact hs

/-- Keeping a row's old contents leaves the memory alone. -/
@[simp] theorem keepRow_mem (s : State) (c row : Nat) : (keepRow s c row).mem = s.mem := by
  unfold keepRow; split <;> rfl

/-- A scheduled write keeps it. -/
theorem wf_wrRow (s : State) (c row : Nat) (bytes : List (Option Byte)) (h : Memory.wf s.mem = true) :
    Memory.wf (wrRow s c row bytes).mem = true :=
  wf_wrRowRaw (keepRow s c row) c row bytes (by rwa [keepRow_mem])

/-- Dropping bytes keeps it. -/
theorem wf_filter (m : List Host.Cell) (p : Host.Cell → Bool) (h : Memory.wf m = true) : Memory.wf (m.filter p) = true :=
  smWf_filter _ p m h

/-! ## Rows -/

theorem foldl_mem_only {β : Type} (f : State → β → State) (hf : ∀ s x, f s x = { s with mem := (f s x).mem })
    (l : List β) (s : State) : l.foldl f s = { s with mem := (l.foldl f s).mem } := by
  induction l generalizing s with
  | nil => rfl
  | cons x l ih =>
    have h := ih (f s x)
    rw [hf s x] at h
    simp only [List.foldl_cons]
    rw [hf s x, h]

/-- Writing a row changes nothing but the memory. -/
theorem wrRowRaw_eq (s : State) (c row : Nat) (bytes : List (Option Byte)) :
    wrRowRaw s c row bytes = { s with mem := (wrRowRaw s c row bytes).mem } := by
  refine foldl_mem_only _ (fun s b => ?_) _ s
  split <;> rfl

end Sys2Proof.Machine
end

