-- ==== Sys2Proof/Laws/Frames.lean ====
section
/-! SUPPORT. Laws/Frames.lean: the shared operations change only what they name. -/
namespace Sys2Proof.Machine
open Sys2Proof

/-! ## Counting events -/

/-- Counting events changes the fields' states only. -/
theorem actAt_eq (s : State) (f cls task n : Nat) : actAt s f cls task n = { s with fields := (actAt s f cls task n).fields } := by
  unfold actAt
  split <;> rfl

theorem actShared_eq (s : State) (f cls n : Nat) : actShared s f cls n = { s with fields := (actShared s f cls n).fields } :=
  actAt_eq _ _ _ _ _

theorem act_eq (s : State) (c cls n : Nat) : act s c cls n = { s with fields := (act s c cls n).fields } := actAt_eq _ _ _ _ _

/-- Counting events changes nothing of a field's state but its counts. -/
theorem actAt_only (s : State) (f cls task n : Nat) : OnlyActs s (actAt s f cls task n) := by
  intro g
  unfold actAt
  split
  · exact ⟨_, rfl⟩
  · by_cases h : g = f
    · subst h
      rw [getField_modField_self]
      exact ⟨_, rfl⟩
    · rw [getField_modField_ne _ _ h]
      exact ⟨_, rfl⟩

theorem actShared_only (s : State) (f cls n : Nat) : OnlyActs s (actShared s f cls n) := actAt_only _ _ _ _ _

theorem act_only (s : State) (c cls n : Nat) : OnlyActs s (act s c cls n) := actAt_only _ _ _ _ _

@[simp] theorem getClu_actShared (s : State) (f cls n k : Nat) : getClu (actShared s f cls n) k = getClu s k := by
  rw [actShared_eq]
  rfl

@[simp] theorem getCore_actShared (s : State) (f cls n c : Nat) : getCore (actShared s f cls n) c = getCore s c := by
  rw [actShared_eq]
  rfl

@[simp] theorem getReg_actShared (s : State) (f cls n a : Nat) : getReg (actShared s f cls n) a = getReg s a := by
  rw [actShared_eq]
  rfl

@[simp] theorem rdByte_actShared (s : State) (f cls n a : Nat) : rdByte (actShared s f cls n) a = rdByte s a := by
  rw [actShared_eq]
  rfl

@[simp] theorem cycle_actShared (s : State) (f cls n : Nat) : (actShared s f cls n).cycle = s.cycle := by
  rw [actShared_eq]

/-! ## Stewards -/

/-- A steward that issues an instruction of an opcode performs its effect. -/
theorem stewMeaning_issues {s : State} {k : CluId} {op : Nat} (eff : State → Nat → SWord → State) (h : StewardIssues s k op) :
    stewMeaning op eff k s = .next (eff (actShared s (k.val / 256) 18 1) k (stewAt s k)) := by
  obtain ⟨h1, h2, h3⟩ := h
  unfold stewAt at h2 h3
  simp [stewMeaning, h1, h2, h3, stewAt]

/-- An illegal word faults the steward. -/
theorem stewMeaning_illegal {s : State} {k : CluId} (op : Nat) (eff : State → Nat → SWord → State) (h : stewReady s k = true)
    (hl : swLegal (stewAt s k) = false) : stewMeaning op eff k s = .next (stewFault s k .illegalCommand) := by
  unfold stewAt at hl
  simp [stewMeaning, h, hl]

/-- A register written is read back; s0 discards. -/
theorem sreg_setSreg (x : CluSt) (rd : Nat) (v : W32) (h : x.regs.length = 16) (r : Nat) (hr : r < 16) :
    sreg (setSreg x rd v) r = if r = 0 then 0#32 else if r = rd then v else sreg x r := by
  unfold sreg setSreg
  by_cases h0 : r = 0
  · simp [h0]
  · by_cases hd : rd = 0
    · simp [h0, hd]
    · by_cases he : r = rd
      · subst he
        simp [h0, List.getD_eq_getElem?_getD, h, hr]
      · simp [h0, hd, he, List.getD_eq_getElem?_getD, Ne.symm he]

end Sys2Proof.Machine
end

