-- ==== Sys2Proof/Tests/Slice0.lean ====
section
/-! SUPPORT. Tests/Slice0.lean: for every statement with hypotheses, concrete states and operands that meet them all; an ill-formed command
for each check of well-formedness; worked examples of the spec's text. -/
namespace Sys2Proof.Tests

open Sys2Proof Sys2Proof.Machine

set_option Elab.async false

/-- The state after reset with its clocks on, in cycle 100. -/
def on : State := { State.reset with clocksOn := true, cycle := 100 }
/-- A steward instruction, field by field (R225). -/
def sw (op rd ra rb imm : Nat) : Nat := op * 2 ^ 26 + rd * 2 ^ 22 + ra * 2 ^ 18 + rb * 2 ^ 14 + imm
/-- A running steward 0 whose registers are 0, 10, 20, …, 150 and whose word 0 is the given one. -/
def stw (w : Nat) : State := modClu (wrBytes on (stewMem 0 0) (natLe 4 w)) 0 fun x =>
  { x with mode := .run, regs := (List.range 16).map fun i => BitVec.ofNat 32 (10 * i) }
/-- A number from its fields: the first bit and the value of each. -/
def bits (l : List (Nat × Nat)) : Nat := (l.map fun p => p.2 * 2 ^ p.1).sum
/-- Core 0. -/
def core0 : CoreId := ⟨0, by decide⟩
/-- Core 0, in the state given, with the given word as word 10 of its task 0, which has 256 words and all 1536 rows. -/
def runCore (w : Nat) (x : CoreSt) : State :=
  { setReg (setReg (wrBytes on (imemAddr 0 10) (natLe 32 w)) (coreReg 0 oCoreTaskImem) 0x1FF0000#64) (coreReg 0 oCoreTaskTs)
      0x6000000#64 with cores := [(0, x)] }
/-- In RUN before word 10, with loop counters 3, 0, 1 and 2. -/
def atWord : CoreSt :=
  { mode := .run, tasks := ⟨10, [3, 0, 1, 2], 10, [3, 0, 1, 2], 0, []⟩ :: List.replicate 3 ⟨0, [0, 0, 0, 0], 0, [0, 0, 0, 0], 0, []⟩ }
/-- Core 0 is the one member of a line. -/
def member (n : Nat) (s : State) : State :=
  setReg (setReg (setReg s (cluReg 0 (oCluGarMask + 8 * n)) 1#64) (fieldReg 0 (oGarFmask + 0x20 * n)) 1#64) (modReg (oGarLineFields + 8 * n)) 1#64
/-- Writes several registers; a Quartz time among them is the uptime too. -/
def regsOf (s : State) (l : List (Nat × Nat)) : State :=
  let t := l.foldl (fun s p => setReg s p.1 (BitVec.ofNat 64 p.2)) s
  match l.find? (·.1 == modReg oQtzTime) with
  | some p => { t with ns := p.2 }
  | none => t
/-- A begun command of an engine, due in cycle 100. -/
def cmdOf (e : EngineId) (slot : Nat) : Cmd :=
  { eng := e, slot := slot, tag := 1#20, step := 5, sig := none, task := 0, tbase := 0, rc := 0xFFFFFFF0#32, addr := 0, issued := 80, writes := []
    begun := some 90, lastIn := 92, due := 100, done := false, acks := 0 }
/-- Rows of core 0's tile store with a pattern in them. -/
def rowsFrom (s : State) (row n : Nat) : State :=
  wrBytes s (tileAddr 0 row 0) ((List.range (32 * n)).map fun i => BitVec.ofNat 8 (i * i + 3 * i + row))
/-- The bytes of 32-bit numbers. -/
def words32 (l : List Nat) : List Byte := (l.map fun x => natLe 4 x).flatten
/-- The word at core 0's fetch pointer. -/
def curFetch (s : State) : W256 := (fetchWord s core0).getD 0

/-! Well-formedness: for each check of a command's operands, a command that it refuses. -/

/-- A header with good fields and the given lanes. -/
def sampleHeader (lanes : List (Option (Fin 34))) : Header :=
  { frame := 0, tTx := 0, tEcho := 0, turn := 0, slips := 0, spareIn := none, depth := 0, serial := 0#64, domain := 0#16, x := 0, y := 0, z := 0
    link := 0, v20 := true, v12 := false, mgmt := [], lanes := lanes, corrected := 0, uncorrected := 0 }
/-- A cell with the given rows. -/
def sampleCell (empty : Bool) (rows : List (List Byte)) : Cell :=
  { empty := empty, replay := false, lch := 0, seq := 0, gen := 0, ack := none, nak := none, slip := none, rows := rows, good := true }
theorem test_ill_formed_cell_row : (Instr.cellRx 0 0 0 (sampleCell false [[]])).ok = false := by decide
theorem test_ill_formed_cell_empty : (Instr.cellRx 0 0 0 (sampleCell true [List.replicate 32 0#8])).ok = false := by decide
theorem test_ill_formed_header : (Instr.frameHeaderRx 0 0 (sampleHeader [])).ok = false := by decide
theorem test_ill_formed_twin_record : (Instr.twinRecordRx ⟨0, 0, 0, [], none⟩).ok = false := by decide
theorem test_ill_formed_thermal_loop : (Instr.thermalLoop [] 0#16 0#16).ok = false := by decide
theorem test_ill_formed_debug_access : (Instr.debugAccess false 0 (some [])).ok = false := by decide
theorem test_ill_formed_debug_memory : (Instr.debugAccess true 0 (some [])).ok = false := by decide
theorem test_ill_formed_flash : (Instr.flash true true ⟨0x3FFFFFF, by decide⟩ [0#8, 0#8]).ok = false := by decide
theorem test_ill_formed_imem_write : (Instr.imemWrite .boot 0 ⟨0x1FFF, by decide⟩ [0#8, 0#8]).ok = false := by decide
theorem test_ill_formed_acc_write : (Instr.accWrite .boot 0 ⟨0x3FFF, by decide⟩ [0#8, 0#8]).ok = false := by decide
theorem test_ill_formed_vtile_write : (Instr.vtileWrite .boot 0 ⟨0xFFF, by decide⟩ [0#8, 0#8]).ok = false := by decide
theorem test_ill_formed_steward_mem_write : (Instr.stewardMemWrite .boot 0 ⟨0x3FFF, by decide⟩ [0#8, 0#8]).ok = false := by decide
theorem test_ill_formed_tile_store_write : (Instr.tileStoreWrite .boot 0 ⟨49151, by decide⟩ [0#8, 0#8]).ok = false := by decide
theorem test_ill_formed_stacked_write : (Instr.stackedMemoryWrite .boot ⟨0xFFFFFFFFFF, by decide⟩ [0#8, 0#8]).ok = false := by decide
/-- A write of 2^32 bytes is longer than its length field can say (R452). -/
theorem test_ill_formed_rdma_write (data : List Byte) (h : data.length = 2 ^ 32) : (Instr.rdmaWrite 0 0#24 0#32 0#64 data).ok = false := by
  simp [Instr.ok, h]
theorem test_well_formed : (Instr.cellRx 0 0 0 (sampleCell false [List.replicate 32 0#8])).ok = true ∧
    (Instr.frameHeaderRx 0 0 (sampleHeader (List.replicate 34 none))).ok = true ∧ (Instr.twinRecordRx ⟨0, 0, 0, List.replicate 64 0, none⟩).ok = true ∧
    (Instr.thermalLoop (List.replicate 64 0#16) 0#16 0#16).ok = true := by decide
/-- What is ill-formed stops by its name and changes nothing. -/
theorem test_ill_formed_stops : exec (.thermalLoop [] 0#16 0#16) on = .fault .illFormed := rfl

/-! Worked examples of the spec's text. -/

/-- The worked identification of the scope section: core (10, 100) of field (3, 2). -/
theorem test_worked_identification : coreAt 19 10 100 = 364938 ∧ fieldOfCore 364938 = 19 ∧ cluInField 364938 = 193 ∧ cxOf 364938 = 10 ∧
    cyOf 364938 = 100 ∧ coreBase 364938 = 0x200B23140000 ∧ imemAddr 364938 0 = 0x200B2314C000 ∧ memBase 19 = 0x4C00000000 ∧
    fieldReg 19 0 = 0x300013000000 := by decide
/-- The way of field (0, 0)'s clock (R341). -/
theorem test_worked_clock_path : clockPath 6 0 = [1, 2, 3, 11, 19, 27] := by decide
/-- Core C of the channel section is (24, 100), three columns east of core P. -/
theorem test_worked_channel_cores : coreAt 19 24 100 = 364952 ∧ coreAt 19 21 100 = 364949 := by decide
/-- Port core 5 of link 13 is core (127, 69) of field 23. -/
theorem test_worked_port_core : portCore 13 5 = coreAt 23 127 69 := by decide
/-- HST_RESET_CTL and slot 5 of mailbox 2 through BAR0 (R577). -/
theorem test_worked_bar0 : barAddr on false 0xA8 = some (modReg oHstResetCtl) ∧
    barAddr on false 0x64500 = some (mbAddr 2 0 + 0x4000 + 256 * 5) := by decide +kernel
/-- Word A of the sequencer section. -/
def sampleWord : W256 := BitVec.ofNat 256 (0x008280603E000000 + 0x0005093000000000 * 2 ^ 128 + 0x000000007012348C * 2 ^ 192)
theorem test_worked_word : wPhase sampleWord = 7 ∧ wTag sampleWord = 0x01234#20 ∧ wWaitEn sampleWord = true ∧ wWaitCtr sampleWord = 3 ∧ wWaitCond sampleWord = 0 ∧
    wWaitVal sampleWord = 5 ∧ wSigEn sampleWord = true ∧ wSigCtr sampleWord = 4 ∧ wSigWhen sampleWord = 3 ∧ wSigInc sampleWord = 1 ∧
    decodeMatrix (wMatrix sampleWord) = some .empty ∧ decodeVector (wVector sampleWord) = some none ∧
    decodeMove (wMove sampleWord) = some (.tcopy 320 384 31 false) ∧ ownLegal sampleWord = true ∧ sigLegal sampleWord = true := by decide +kernel
/-- The three worked conversions of 19/64 to E4M3, RNA too, and SR on both sides of its half. -/
theorem test_worked_rounding : (encodeFp ⟨4, 3, 7, -6, 8, 14, .e4m3⟩ false 19 (-6) .rne false 0).1 = 0x2A ∧
    (encodeFp ⟨4, 3, 7, -6, 8, 14, .e4m3⟩ false 19 (-6) .rz false 0).1 = 0x29 ∧
    (encodeFp ⟨4, 3, 7, -6, 8, 14, .e4m3⟩ false 19 (-6) .rna false 0).1 = 0x2A ∧
    (encodeFp ⟨4, 3, 7, -6, 8, 14, .e4m3⟩ false 19 (-6) .sr false 0x7FFFFFFF).1 = 0x2A ∧
    (encodeFp ⟨4, 3, 7, -6, 8, 14, .e4m3⟩ false 19 (-6) .sr false 0x80000000).1 = 0x29 := by decide
/-- The worked exact element: A = 2^22 at window base 0 is 2^−10, and what it rounds out to. -/
theorem test_worked_exact : ([Fmt.fp32, .bf16, .e5m2, .e4m3, .int32].map fun f => (encodeVal f (exactVal 0x400000#96 0) .rne false 0).1) =
    [0x3A800000, 0x3A80, 0x14, 0, 0] := by decide
/-- In FP32, 2^20 + 2^−10 − 2^20 is +0, in another order 2^−10 (the worked order). -/
theorem test_worked_order : add32 (add32 0x49800000#32 0x3A800000#32) 0xC9800000#32 = 0#32 ∧
    add32 (add32 0xC9800000#32 0x49800000#32) 0x3A800000#32 = 0x3A800000#32 := by decide
/-- E2M1 6 with X = 127, scale byte 254, is infinity in FP32, and the largest value with sat. -/
theorem test_worked_scaled : (encodeVal .fp32 (scaleVal (decodeElem .e2m1 7) 254) .rne false 0).1 = 0x7F800000 ∧
    (encodeVal .fp32 (scaleVal (decodeElem .e2m1 7) 254) .rne true 0).1 = 0x7F7FFFFF := by decide
/-- Word 2 and word 3 of the worked fault record (R538). -/
theorem test_worked_fault_record : (recBytes
    { name := .rangeHazard, unit := 0, fatal := true, fence := false, cont := false, lost := false, secondary := false, loc := 0x5918A
      tag := 0x01240#20, time := 0#64, step := 1024#64, detail := coreDetail .rangeHazard 2 0x1234, source := 0 }).drop 8 =
    natLe 8 0x400 ++ natLe 8 0x1003105918A01240 ++ natLe 8 0x0020000000001234 := by decide
/-- The check value of this CRC-32 for the digits 1 to 9 (PRESUMED: known of the CRC, not given by the spec). -/
theorem test_crc32 : crc32 ((List.range 9).map fun i => BitVec.ofNat 8 (49 + i)) = 0xCBF43926 := by decide +kernel

/-! Witnesses of the statements about every step and of the decoders. -/

theorem wit_queue_moves : (match step { on with pending := [.realign, .slipFrame] } with
    | .next t => decide (t.pending = [.slipFrame]) | _ => false) = true := by decide +kernel
theorem wit_memory_canonical : MemCanon { wrBytes on 5 [1#8, 2#8, 0#8] with pending := [.realign] } ∧
    (match step { wrBytes on 5 [1#8, 2#8, 0#8] with pending := [.realign] } with | .next _ => true | _ => false) = true := by
  unfold MemCanon; decide +kernel
/-- A running module with a command waiting: its shapes hold, and it steps. -/
theorem wit_shapes : Shapes { on with pending := [.realign] } where
  tasks _ := ⟨rfl, Nat.succ_pos 3⟩
  cmdTask _ _ h := absurd h List.not_mem_nil
  lanes _ := rfl
  regs _ := rfl
  dogs := rfl
  slots := rfl
  sessions := rfl
  discard := rfl
  links := List.nodup_nil
theorem wit_slots_matrix : decodeMatrix 0 = some .empty ∧ decodeMatrix 0 ≠ decodeMatrix (3 * 2 ^ 42) := by decide +kernel
theorem wit_slots_move : decodeMove (2 ^ 52 + 2 ^ 31) = decodeMove (2 ^ 52) ∧ decodeMove (2 ^ 52) ≠ none ∧
    (2 ^ 52 + 2 ^ 31) / 2 ^ 51 = 2 ^ 52 / 2 ^ 51 ∧ 2 ^ 52 / 2 ^ 51 % 2 = 0 ∧ decodeMove (2 ^ 52 + 2 ^ 51 + 2 ^ 31) ≠ decodeMove (2 ^ 52 + 2 ^ 51) := by
  decide +kernel
theorem wit_reset_register : (decodeAddr (coreReg 1048575 oCoreCtrStatus)).bind regionOf = some .reg ∧
    (decodeAddr (linkReg 47 0x10)).bind regionOf = some .reg := by decide +kernel

/-- The word of each row: all its fields used where the opcode has them. -/
def arithWord (op : Nat) : Nat :=
  if op = 0x0F then sw op 15 0 0 0 + 0x3FFFF else if 0x0C ≤ op ∧ op ≤ 0x0E then sw op 15 7 0 0x3FFF else sw op 15 7 9 0
theorem wit_arith : ∀ row ∈ stewardArith, StewardIssues (stw (arithWord row.op)) 0 row.op ∧ SixteenRegs (stw (arithWord row.op)) 0 := by
  unfold StewardIssues SixteenRegs; decide +kernel

/-- LD and ST of the last aligned word, 0x3FFC = 40 + 16340 with a sign-extended immediate of ra = 0: here ra = s4 = 40. -/
def ldState (op : Nat) : State := wrBytes (modClu (stw (sw op 5 4 0 0x3FFC)) 0 fun x =>
  { x with regs := x.regs.set 4 0x4000#32 }) (stewMem 0 0x3FFC) [0x78#8, 0x56#8, 0x34#8, 0x12#8]
theorem wit_load_store_1 : StewardIssues (ldState 0x18) 0 0x18 ∧ SixteenRegs (ldState 0x18) 0 := by
  unfold StewardIssues SixteenRegs; decide +kernel
theorem wit_load_store_2 : StewardIssues (ldState 0x19) 0 0x19 ∧ SixteenRegs (ldState 0x19) 0 := by
  unfold StewardIssues SixteenRegs; decide +kernel
theorem wit_load_store_3 : (sreg (getClu (ldState 0x18) 0) 4 + BitVec.ofInt 32 (signedOf 14 0x3FFC)).toNat = 0x3FFC := by
  decide +kernel

/-- INBV and INBI of entry 255, which is fresh and lost. -/
def inboxState (op : Nat) : State := setReg (stw (sw op 15 5 0 205)) (inbox 0 255) 0xA003123400000010#64
theorem wit_inbox_1 : StewardIssues (inboxState 0x1A) 0 0x1A ∧ StewardIssues (inboxState 0x1B) 0 0x1B ∧ SixteenRegs (inboxState 0x1A) 0 ∧ SixteenRegs (inboxState 0x1B) 0 := by
  unfold StewardIssues SixteenRegs; decide +kernel
theorem wit_inbox_2 : (sreg (getClu (inboxState 0x1A) 0) 5 + BitVec.ofNat 32 205).toNat = 255 := by
  decide +kernel

/-- Addresses just past each bound of R227: unaligned, 0x4000, entry 256, 0xC000. -/
def boundState (op imm : Nat) (r : W32) : State := modClu (stw (sw op 5 4 (if 0x1C ≤ op then 3 else 0) imm)) 0 fun x => { x with regs := x.regs.set 4 r }
theorem wit_bounds_1 : ∀ op ∈ [0x18, 0x19], StewardIssues (boundState op 1 0#32) 0 op ∧ StewardIssues (boundState op 0 0x4000#32) 0 op := by
  unfold StewardIssues; decide +kernel
theorem wit_bounds_2 : ∀ op ∈ [0x1A, 0x1B], StewardIssues (stw (sw op 5 4 0 216)) 0 op := by
  unfold StewardIssues; decide +kernel
theorem wit_bounds_3 : ∀ op ∈ [0x1C, 0x1D], StewardIssues (boundState op 2 0#32) 0 op ∧ StewardIssues (boundState op 0 0xC000#32) 0 op := by
  unfold StewardIssues; decide +kernel

theorem wit_illegal_steward : (∀ w ∈ [sw 0x2F 0 0 0 0, sw 0x3F 0 0 0 0, sw 0x13 0 0 0 0, sw 0x00 1 0 0 0, sw 0x01 1 2 3 1, sw 0x2E 0 0 0 1], stewReady (stw w) 0 = true ∧ swLegal (stewAt (stw w) 0) = false) := by
  decide +kernel

/-- A branch back over one word, s5 against s6, taken or not; with equal sources s5 and s5. -/
def brState (op rb : Nat) : State := stw (sw op 0 5 rb 0x3FFF)
theorem wit_branches : ∀ row ∈ stewardBranches, ∀ rb ∈ [5, 6], StewardIssues (brState row.op rb) 0 row.op := by
  unfold StewardIssues; decide +kernel

theorem wit_jumps : StewardIssues (stw (sw 0x26 15 0 0 0x3FFF)) 0 0x26 ∧ SixteenRegs (stw (sw 0x26 15 0 0 0x3FFF)) 0 ∧ StewardIssues (stw (sw 0x27 0 15 0 0)) 0 0x27 ∧ StewardIssues (stw 0) 0 0x00 ∧ StewardIssues (stw (sw 0x2E 0 0 0 0)) 0 0x2E := by
  unfold StewardIssues SixteenRegs; decide +kernel

/-- QTIME of a time above 2^32, and its latch. -/
def qtState (imm : Nat) : State := modClu (setReg (stw (sw 0x2B 3 0 0 imm)) (fieldReg 0 oFldQtzTime) 0x123456789#64) 0 fun x => { x with latch := 7#32 }
/-- DPTAG of core 63 − 13 = 50 (s5), which has arrived in HELD, or in STOPPED. -/
def dptagState (m : CoreMode) (a : Option Nat) : State := setCore (stw (sw 0x1F 3 5 0 0)) (coreOfClu 0 50) { mode := m, arrAt := a, arrTag := 0xFFFFF#20, prevTag := 5#20 }
theorem wit_reports_1 : StewardIssues (qtState 0) 0 0x2B ∧ StewardIssues (qtState 1) 0 0x2B ∧ SixteenRegs (qtState 0) 0 ∧ bitOf (swImm (stewAt (qtState 0) 0)) 0 = false ∧ bitOf (swImm (stewAt (qtState 1) 0)) 0 = true := by
  unfold StewardIssues SixteenRegs; decide +kernel
theorem wit_reports_2 : StewardIssues (stw (sw 0x2C 3 0 0 0)) 0 0x2C ∧ StewardIssues (stw (sw 0x2D 0 15 0 0)) 0 0x2D := by
  unfold StewardIssues; decide +kernel
theorem wit_reports_3 : StewardIssues (dptagState .held (some 94)) 0 0x1F ∧ arrivalSeen (dptagState .held (some 94)) (coreOfClu 0 50) = true ∧ arrivalSeen (dptagState .stopped (some 0)) (coreOfClu 0 50) = true ∧ arrivalSeen (dptagState .held (some 95)) (coreOfClu 0 50) = false := by
  unfold StewardIssues; decide +kernel

/-- Any compiled task may read and write every row of field 0's cores; TSLD, TSST or CTRINC of core 63 − 49 = 14 (s14 = 140 mod 64 = 12). -/
def tsState (op imm : Nat) : State :=
  let s := setReg (setReg (stw (sw op (if op = 0x1E then 0 else 5) 0 14 imm)) (fieldReg 0 oSvcCorewin) 0xFFFC1F#64) (fieldReg 0 (oSvcCorewin + 8)) (BitVec.ofNat 64 (2 ^ 64 - 1))
  modClu s 0 fun x => { x with tsstNext := 3, tsstOut := [1] }
theorem wit_steward_tiles_1 : StewardIssues (tsState 0x1C 0x3FFC) 0 0x1C ∧ stewGranted (tsState 0x1C 0x3FFC) (coreOfClu 0 12) 0x3FFC false = true := by
  unfold StewardIssues; decide +kernel
theorem wit_steward_tiles_2 : StewardIssues (tsState 0x1D 0x3FFC) 0 0x1D ∧ stewGranted (tsState 0x1D 0x3FFC) (coreOfClu 0 12) 0x3FFC true = true := by
  unfold StewardIssues; decide +kernel
theorem wit_steward_tiles_3 : StewardIssues (tsState 0x1E 0x201F) 0 0x1E ∧ StewardIssues (tsState 0x1E 0x1F) 0 0x1E := by
  unfold StewardIssues; decide +kernel

/-- A CTRINC that is due, of core 63 or of all 64; one that waits behind a TSST goes before it in the list. -/
def incState (core : Option Nat) : State := modClu on 0 fun x => { x with incs := [⟨102, 0, some 1, 2, 1#16⟩, ⟨100, 3, core, 31, 0xFFFF#16⟩], tsstOut := [3] }
theorem wit_increments : ∀ core ∈ [some 63, none], (incState core).clocksOn = true ∧ cluFenced (incState core) 0 = false ∧ ((getClu (incState core) 0).incs.find? fun j => incReady (incState core) (getClu (incState core) 0) j) = some ⟨100, 3, core, 31, 0xFFFF#16⟩ := by
  decide +kernel

/-- A summary of core 63 of cluster 0 for its slot 3, over a fresh entry and a full count of lost words. -/
def summState (old lost : Nat) : State :=
  let c := coreOfClu 0 63
  modCore (setReg (setReg on (inbox 0 255) (BitVec.ofNat 64 old)) (cluReg 0 oCluInboxLost) (BitVec.ofNat 64 lost)) c fun x => { x with summ := [(3, 0xF000123456789ABC#64), (0, 1#64)] }
def c63 : CoreId := ⟨coreOfClu 0 63, by decide⟩
theorem wit_summary_lands : ∀ old ∈ [0, 0xFFFFFFFFFFFFFFFF], (getCore (summState old 0) c63).summ = (3, 0xF000123456789ABC#64) :: [(0, 1#64)] ∧ coreFenced (summState old 0) c63 = false ∧ (summState old 0).clocksOn = true := by
  decide +kernel
/-- A word that has landed for entry 255, over a fresh entry and over a stale one. -/
theorem wit_summary_enters : ∀ old ∈ [0, 2 ^ 49], (getClu (modClu (setReg on (inbox 0 255) (BitVec.ofNat 64 old)) 0 fun y => { y with landed := [(255, 0xF000123456789ABC#64)] }) 0).landed = [(255, 0xF000123456789ABC#64)] := by
  decide +kernel

/-- The cores of cluster 0: 60 in HELD since cycle 90, three STOPPED, and core 63 as given. -/
def dpState (w : Nat) (last : CoreSt) : State :=
  { stw w with cores := (List.range 64).map fun n => (coreOfClu 0 n, if n = 63 then last else
    { mode := if n < 3 then .stopped else .held, arrAt := some (if n < 3 then 5 else 90), arrTag := if n = 7 then 2#20 else 1#20 }) }
/-- The steward waits since cycle 80, with a horizon of 20 cycles. -/
def waitState (last : CoreSt) (cy h : Nat) : State :=
  let s := setReg (dpState 0 last) (cluReg 0 (oCluHorizon + 8 * 7)) (BitVec.ofNat 64 h)
  { modClu s 0 fun x => { x with mode := .waitdp, wait := some (80, 7) } with cycle := cy }
/-- Core 63 in HELD since a cycle. -/
def heldAt (a : Nat) : CoreSt := { mode := .held, arrAt := some a, arrTag := 1#20 }
theorem wit_decisions_1 : StewardIssues (stw (sw 0x28 0 0 0 7)) 0 0x28 := by
  unfold StewardIssues; decide +kernel
theorem wit_decisions_2 : (getClu (waitState (heldAt 94) 100 20) 0).wait = some (80, 7) ∧ (waitState (heldAt 94) 100 20).clocksOn = true ∧ cluFenced (waitState (heldAt 94) 100 20) 0 = false ∧ (getClu (waitState (heldAt 94) 100 20) 0).mode = .waitdp ∧ (∀ c ∈ cluCores 0, arrived (waitState (heldAt 94) 100 20) c = true) ∧ ((cluCores 0).map fun c => seenFrom (getCore (waitState (heldAt 94) 100 20) c)).foldl max 81 = 100 ∧ 80 + getF (waitState (heldAt 94) 100 20) (cluReg 0 (oCluHorizon + 8 * 7)) 31 0 = 100 := by
  decide +kernel
theorem wit_decisions_3 : arrived (waitState { mode := .faulted } 101 20) (coreOfClu 0 63) = false ∧ 80 + getF (waitState { mode := .faulted } 101 20) (cluReg 0 (oCluHorizon + 8 * 7)) 31 0 < 101 := by
  decide +kernel

theorem wit_setnx_release_1 : ∀ imm ∈ [0, 1], StewardIssues (stw (sw 0x29 0 15 9 imm)) 0 0x29 := by
  unfold StewardIssues; decide +kernel
theorem wit_setnx_release_2 : StewardIssues (dpState (sw 0x2A 0 0 0 0) (heldAt 99)) 0 0x2A ∧ (getClu (dpState (sw 0x2A 0 0 0 0) (heldAt 99)) 0).tsstOut = [] ∧ (getClu (dpState (sw 0x2A 0 0 0 0) (heldAt 99)) 0).incs = [] ∧ (∀ c ∈ cluCores 0, arrived (dpState (sw 0x2A 0 0 0 0) (heldAt 99)) c = true) ∧ (getClu (dpState (sw 0x2A 0 0 0 0) (heldAt 99)) 0).waited = false := by
  unfold StewardIssues; decide +kernel

/-- Word A of chapter 2: TCOPY of tile 10 to tile 12, a wait on counter 3 for 5, a signal of counter 4 at completion. -/
def wordA : Nat := 0x000000007012348C_0005093000000000_0000000000000000_008280603E000000
def stateA : State := setCtr (runCore wordA atWord) 0 3 5#16
theorem wit_word_a : WordIssues stateA core0 ∧ FourTasks stateA core0 ∧ wBarEn (curWord stateA core0) = false ∧ wDp (curWord stateA core0) = false := by
  unfold FourTasks WordIssues Considers WordLegal; decide +kernel

/-- A decision-point word that clears block 63, waits GE_SUB on counter 31 for 0xFFFF, signals counter 30 by 16 at issue and
arrives on line 6. -/
def wordB : Nat := bits [(251, 1), (248, 1), (245, 6), (243, 1), (242, 1), (220, 255), (200, 0xFFFFF), (199, 1), (194, 31), (192, 2), (176, 0xFFFF),
  (171, 1), (166, 30), (160, 15), (154, 3), (148, 63), (52, 12)]
def stateB : State := member 6 (setCtr (runCore wordB atWord) 0 31 0x7FFE#16)
theorem wit_word_full : WordIssues stateB core0 ∧ FourTasks stateB core0 ∧ MayArrive stateB core0 6 ∧ wBarLine (curWord stateB core0) = 6 ∧ wDp (curWord stateB core0) = true ∧ wOvlEn (curWord stateB core0) = false := by
  unfold FourTasks WordIssues Considers WordLegal MayArrive; decide +kernel
/-- A decision-point word with overlay 7, two words from an address on that go to word 254. -/
def ovlState (a : Nat) : State :=
  setReg (runCore (bits [(251, 1), (238, 1), (235, 7), (200, 0x80001)]) atWord) (coreReg 0 (oCoreOvl + 56)) (BitVec.ofNat 64 (bits [(56, 1), (48, 254), (0, a)]))
theorem wit_word_overlay : WordIssues (ovlState 0x3FFFFFFC0) core0 ∧ FourTasks (ovlState 0x3FFFFFFC0) core0 ∧ wDp (curWord (ovlState 0x3FFFFFFC0) core0) = true ∧ wOvlEn (curWord (ovlState 0x3FFFFFFC0) core0) = true ∧ wBarEn (curWord (ovlState 0x3FFFFFFC0) core0) = false := by
  unfold FourTasks WordIssues Considers WordLegal; decide +kernel

/-- Word 10 with a loop field: operation, level, argument. -/
def loopState (op lvl arg : Nat) : State := runCore (bits [(241, op), (239, lvl), (228, arg)]) atWord
def loopsState : State := setReg (loopState 2 3 0x7FF) (coreReg 0 (oCoreLoopinit + 24)) 0xFFFFFFFF#64
theorem wit_loops_1 : WordIssues (loopState 1 3 0x7FF) core0 ∧ FourTasks (loopState 1 3 0x7FF) core0 ∧ wDp (curWord (loopState 1 3 0x7FF) core0) = false ∧ wLoopOp (curWord (loopState 1 3 0x7FF) core0) = 1 := by
  unfold FourTasks WordIssues Considers WordLegal; decide +kernel
theorem wit_loops_2 : WordIssues loopsState core0 ∧ wLoopOp (curWord loopsState core0) = 2 := by
  unfold WordIssues Considers WordLegal; decide +kernel
theorem wit_loops_3 : WordIssues (loopState 3 0 10) core0 ∧ WordIssues (loopState 3 1 11) core0 ∧ wLoopOp (curWord (loopState 3 0 10) core0) = 3 ∧ wLoopOp (curWord (loopState 3 1 11) core0) = 3 := by
  unfold WordIssues Considers WordLegal; decide +kernel
theorem wit_loops_4 : WordIssues (loopState 4 0 255) core0 ∧ wLoopOp (curWord (loopState 4 0 255) core0) = 4 ∧ WordIssues (loopState 5 0 0) core0 ∧ wLoopOp (curWord (loopState 5 0 0) core0) = 5 := by
  unfold WordIssues Considers WordLegal; decide +kernel

def sbState : State := setReg (runCore (bits [(249, 1)]) atWord) (coreReg 0 oCoreRng) 0x12345678#64
/-- An arrival on line 6 by a core whose arrival stands, and by one that is no member. -/
def earlyState (held : Bool) : State := let s := runCore (bits [(248, 1), (245, 6), (200, 0xABCDE)]) atWord
  if held then setReg (member 6 s) (garReg 0 6) 0x400#64 else s
theorem wit_step_boundary_1 : WordIssues sbState core0 ∧ FourTasks sbState core0 ∧ wSb (curWord sbState core0) = true ∧ wBarEn (curWord sbState core0) = false ∧ (wDp (curWord sbState core0) && wOvlEn (curWord sbState core0)) = false := by
  unfold FourTasks WordIssues Considers WordLegal; decide +kernel
theorem wit_step_boundary_2 : WordIssues (earlyState true) core0 ∧ WordIssues (earlyState false) core0 ∧ wBarEn (curWord (earlyState true) core0) = true ∧ getB (earlyState true) (garReg core0 (wBarLine (curWord (earlyState true) core0))) 10 = true ∧ garMember (earlyState true) core0 6 = true ∧ garMember (earlyState false) core0 (wBarLine (curWord (earlyState false) core0)) = false := by
  unfold WordIssues Considers WordLegal; decide +kernel
/-- Line 6 runs in fallback, and the core's group there expects no arrival, or one. -/
def unusedState (exp : Nat) : State := regsOf (member 6 (earlyState false)) [(modReg (oGarLineCtl + 48), 1), (garReg 0 6, 15 * 64), (modReg (oGarFbexpG + 0x80 * 6 + 8 * 15), exp)]
theorem wit_step_boundary_3 : WordIssues (unusedState 0) core0 ∧ FourTasks (unusedState 0) core0 ∧ wBarEn (curWord (unusedState 0) core0) = true ∧ ¬ MayArrive (unusedState 0) core0 6 ∧ wBarLine (curWord (unusedState 0) core0) = 6 := by
  unfold FourTasks WordIssues Considers WordLegal MayArrive; decide +kernel
theorem wit_step_boundary_4 : WordIssues (unusedState 1) core0 ∧ FourTasks (unusedState 1) core0 ∧ MayArrive (unusedState 1) core0 6 := by
  unfold FourTasks WordIssues Considers WordLegal MayArrive; decide +kernel

/-- One word for each check of R48: a reserved bit; a TCOPY past the task's rows; an LBACK before word 0; an overlay longer
than the task; a TCOPY whose destination another command writes; a full move queue. -/
def badWord (n : Nat) : Nat :=
  bits ([(200, 0x80001)] ++ [[(252, 1)], [(52, 8), (41, 1505), (25, 31)], [(241, 3), (228, 11)], [(251, 1), (238, 1), (235, 7)], [(52, 8), (30, 64)],
    [(52, 12)]].getD n [])
/-- A queued command of an engine that writes rows 64 and 65. -/
def queued (e : EngineId) (wr : List Range) : Cmd :=
  { eng := e, slot := 0, tag := 0x7F#20, step := 0, sig := none, task := 0, tbase := 0, rc := 0, addr := 0, issued := 90, writes := wr
    begun := none, lastIn := 0, due := 0, done := false, acks := 0 }
def badState (n : Nat) : State :=
  setReg (runCore (badWord n) { atWord with cmds := if n = 4 then [queued .matrix [⟨.tile, 64, 65⟩]] else if n = 5 then List.replicate 8 (queued .move []) else [] })
    (coreReg 0 (oCoreOvl + 56)) 0x0180000000000000#64 |> fun s => setReg s (coreReg 0 oCoreTaskImem) (if n = 3 then 0x1000000#64 else getReg s (coreReg 0 oCoreTaskImem))
theorem wit_issue_checks_1 : Considers (badState 0) core0 ∧ (getCore (badState 0) core0).waitSince = none ∧ illegalSlot (badState 0) core0 (curWord (badState 0) core0) = some 0 := by
  unfold Considers; decide +kernel
theorem wit_issue_checks_2 : Considers (badState 1) core0 ∧ WordLegal (badState 1) core0 ∧ waitOk (badState 1) core0 (curWord (badState 1) core0) = true ∧ boundFail (badState 1) core0 (curWord (badState 1) core0) = some (3, none) := by
  unfold Considers WordLegal; decide +kernel
theorem wit_issue_checks_3 : Considers (badState 2) core0 ∧ WordLegal (badState 2) core0 ∧ boundFail (badState 2) core0 (curWord (badState 2) core0) = some (0, none) := by
  unfold Considers WordLegal; decide +kernel
theorem wit_issue_checks_4 : Considers (badState 3) core0 ∧ WordLegal (badState 3) core0 ∧ boundFail (badState 3) core0 (curWord (badState 3) core0) = none ∧ overlayFits (badState 3) core0 (curWord (badState 3) core0) = false := by
  unfold Considers WordLegal; decide +kernel
theorem wit_issue_checks_5 : Considers (badState 4) core0 ∧ WordLegal (badState 4) core0 ∧ boundFail (badState 4) core0 (curWord (badState 4) core0) = none ∧ overlayFits (badState 4) core0 (curWord (badState 4) core0) = true ∧ hazardFail (badState 4) core0 (curWord (badState 4) core0) = some (3, 0x7F#20) := by
  unfold Considers WordLegal; decide +kernel
theorem wit_issue_checks_6 : Considers (badState 5) core0 ∧ WordLegal (badState 5) core0 ∧ boundFail (badState 5) core0 (curWord (badState 5) core0) = none ∧ hazardFail (badState 5) core0 (curWord (badState 5) core0) = none ∧ overrunFail (badState 5) core0 (curWord (badState 5) core0) = some 3 := by
  unfold Considers WordLegal; decide +kernel
theorem wit_issue_checks_7 : Considers (ovlState 0x3FFFFFFE0) core0 ∧ WordLegal (ovlState 0x3FFFFFFE0) core0 ∧ waitOk (ovlState 0x3FFFFFFE0) core0 (curWord (ovlState 0x3FFFFFFE0) core0) = true ∧ boundFail (ovlState 0x3FFFFFFE0) core0 (curWord (ovlState 0x3FFFFFFE0) core0) = none ∧ overlayFits (ovlState 0x3FFFFFFE0) core0 (curWord (ovlState 0x3FFFFFFE0) core0) = true ∧ overlayOutside (ovlState 0x3FFFFFFE0) core0 (curWord (ovlState 0x3FFFFFFE0) core0) = some 0x400000000 := by
  unfold Considers WordLegal; decide +kernel

/-- A word that waits on counter 5 for 0xFFF0 with a deadline, the counter one short of it; held since cycle 95 of 5. -/
def heldState (since : Option Nat) (cond : Nat) : State :=
  setReg (setReg (setCtr (runCore (bits [(200, 0x11), (199, 1), (194, 5), (192, cond), (176, 0xFFF0), (173, 7), (172, 1)]) { atWord with waitSince := since }) 0 5 0xFFEF#16)
    (coreReg 0 (oCoreHorizon + 56)) 5#64) (fieldReg 0 oFldQtzTime) 1#64
theorem wit_waits_1 : ∀ cond ∈ [0, 1, 2], Considers (heldState none cond) core0 ∧ WordLegal (heldState none cond) core0 ∧ wWaitEn (curWord (heldState none cond) core0) = true ∧ waitOk (heldState none cond) core0 (curWord (heldState none cond) core0) = false := by
  unfold Considers WordLegal; decide +kernel
theorem wit_waits_2 : Considers (heldState (some 96) 0) core0 ∧ horizonOver (heldState (some 95) 0) core0 = true ∧ (getCore (heldState (some 95) 0) core0).mode = .run ∧ (heldState none 0).clocksOn = true := by
  unfold Considers; decide +kernel
theorem wit_waits_3 : (getCore (heldState (some 96) 1) core0).waitSince.isSome = true ∧ wWaitDl (curWord (heldState (some 96) 1) core0) = true ∧ (getCore (heldState (some 96) 1) core0).missed = false ∧ waitOk (heldState (some 96) 1) core0 (curWord (heldState (some 96) 1) core0) = false ∧ deadlineOf (heldState (some 96) 1) core0 < (getReg (heldState (some 96) 1) (fieldReg (fieldOfCore core0) oFldQtzTime)).toNat := by
  decide +kernel

/-- A TCOPY of rows 0 to 3 to row 640 on, to begin in cycle 100, and one whose effect is done. -/
def copyCmd : Cmd := { queued .move [⟨.tile, 640, 643⟩] with slot := 0x80_0000_0000_0000 + 640 * 2 ^ 30 + 3 * 2 ^ 25, sig := some (31, 16), issued := 99 }
def beginState : State := runCore 0 { atWord with cmds := [copyCmd], freeX := 100 }
def doneState : State := runCore 0 { atWord with cmds := [{ copyCmd with begun := some 95, due := 100, done := true }, copyCmd] }
theorem wit_begin_complete_1 : engRuns beginState core0 = true ∧ nextBegin beginState core0 .move = some copyCmd ∧ putRoom beginState core0 copyCmd = true := by
  decide +kernel
theorem wit_begin_complete_2 : doneCmd doneState core0 .move = some { copyCmd with begun := some 95, due := 100, done := true } ∧ (getCore doneState core0).sched.all (fun a => !a.lost || a.told) = true := by
  decide +kernel

/-- A core in DRAIN; a core in HELD whose redirect to entry 15 has come, usable or not. -/
def drainState (ovl : Bool) : State := runCore 0 { atWord with mode := .drain, considered := some 99, dpTag := 0x22#20, arrTag := 0x33#20, ovlWait := ovl }
def redirState (v : W64) : State := setReg (runCore 0 { atWord with mode := .held, arrAt := some 60, dpTag := 0x22#20, redirect := some (15, 100) })
  (coreReg 0 (oCoreEntry + 120)) v
theorem wit_dp_path_1 : (getCore (drainState true) core0).ovlWait = true ∧ (getCore (drainState true) core0).ovlLeft = [] ∧ (getCore (drainState true) core0).ovlOut = 0 := by
  decide +kernel
theorem wit_dp_path_2 : (drainState false).clocksOn = true ∧ coreFenced (drainState false) core0 = false ∧ (getCore (drainState false) core0).mode = .drain ∧ (getCore (drainState false) core0).cmds = [] ∧ (getCore (drainState false) core0).lateW = [] ∧ (getCore (drainState false) core0).considered ≠ some (drainState false).cycle ∧ (getCore (drainState false) core0).ovlWait = false ∧ (getCore (drainState false) core0).conv = none ∧ (getCore (drainState false) core0).convOut = none ∧ (getCore (drainState false) core0).summ = [] := by
  decide +kernel
theorem wit_dp_path_3 : FourTasks (redirState 0x4FF#64) core0 ∧ (getCore (redirState 0x4FF#64) core0).mode = .held ∧ (getCore (redirState 0x4FF#64) core0).redirect = some (15, 100) ∧ 100 ≤ (redirState 0x4FF#64).cycle ∧ entryOk (redirState 0x4FF#64) core0 15 = true ∧ entryOk (redirState 0x5FF#64) core0 15 = false ∧ entryOk (redirState 0xFF#64) core0 15 = false := by
  unfold FourTasks; decide +kernel

/-- A vector slot of an operation: two vectors, sources in descriptors 2 to 4, results by descriptor 1, masked by descriptor 5;
the special functions and VDROP round to nearest, the others take the code given. -/
def vSlot (op : VOp) (rnd msk : Nat) (imm : Bool) : Nat :=
  let b := (vSrcs op).2.1
  let i := imm && b && !vOwnImm op
  bits [(48, ((List.range 128).find? fun n => vopOf n == some op).getD 0), (44, 1), (40, if (vSrcs op).1 then 2 else 0),
    (36, if b && !i then 3 else 0), (32, if (vSrcs op).2.2 then 4 else 0), (26, 1), (24, msk), (20, if msk = 0 then 0 else 5),
    (18, if vUsesRnd op && !(op == .vdrop && rnd == 2) then rnd else 0), (16, if i then 1 else 0), (0, if i || op == .vdrop || op == .viota then 0xBF81 else 0)]
def vCmd (slot : Nat) : Cmd := cmdOf .vector slot
/-- Core 0 with a vector command in RUN: descriptor 1 has the base given, the sources lie in vector tiles 20, 24 and 28 (as floats
or integers), the mask in 40 and 41. -/
def vState (slot base : Nat) : State :=
  let tile (u : Nat) (l : List Nat) := (vtileAddr 0 u 0, (l.map fun x => natLe 4 x).flatten)
  let f := [0x3F800000, 0xBF000000, 0x7F800000, 0x7FC00001, 0x00000001, 0x80000000, 0x7F7FFFFF, 0x40490FDB]
  let g := [0, 0x80000000, 0x7FFFFFFF, 0xFFFFFFFF, 31, 32, 0x3EAAAAAB, 0xFF800000]
  let s := [tile 10 (List.replicate 16 0x11111111), tile 11 (List.replicate 16 0x22222222), tile 20 (f ++ g), tile 21 (g ++ f), tile 24 (g ++ f),
    tile 25 (f ++ f), tile 28 (f ++ g), tile 29 (g ++ g), tile 40 [1, 0, 1, 1, 1, 1, 1, 1, 1, 1, 0, 1, 1, 1, 1, 0], tile 41 (List.replicate 16 1)].foldl
    (fun s p => wrBytes s p.1 p.2) (runCore 0 { atWord with cmds := [vCmd slot] })
  [(1, base), (2, 20), (3, 24), (4, 28), (5, 40)].foldl (fun s p => setReg s (coreReg 0 (oCoreVdesc + 8 * p.1))
    (BitVec.ofNat 64 (bits [(58, 8), (57, 1), (40, 1), (24, p.2)]))) s
theorem wit_vector_lanes_1 : ∀ row ∈ vectorLaneRows, CommandDue (vState (vSlot row.2 0 0 false) 10) core0 .vector (vCmd (vSlot row.2 0 0 false)) ∧ (vxOf (vSlot row.2 0 0 false)).map (·.op) = some row.2 := by
  unfold CommandDue; decide +kernel
theorem wit_vector_lanes_2 : (vdesc (vState 0 10) core0 1).kind = 0 ∧ (vdesc (vState 0 10) core0 1).lstride = true := by
  decide +kernel

/-- Conversions of chapter 6 with descriptors 6 (BF16 rows 100 and 101), 7 (partials, six rows from 200 on), 8 and 9 (blocks of
E2M1 in part 2, rows 300 on, scales in row 320), 1 (FP32). -/
def cvtSlot (n : Nat) : Nat := bits ([(26, 1)] ++ ([[(48, 0x60), (44, 1), (40, 6), (18, 1), (24, 1), (20, 5)], [(48, 0x61), (44, 1), (40, 7), (18, 3), (24, 2), (20, 5), (0, 0x10)],
  [(48, 0x62), (44, 8), (40, 2), (0, 10 * 32 + 30)], [(48, 0x63), (44, 1), (40, 9), (0, 10 * 32 + 31)]].getD n []))
def cvtState (n : Nat) : State :=
  let row (r x : Nat) := (tileAddr 0 r 0, (List.range 32).map fun i => BitVec.ofNat 8 (x + 37 * i * i))
  let s := [row 100 1, row 101 2, row 200 3, row 201 4, row 202 5, row 203 6, row 204 7, row 205 8, row 206 9, row 207 3, row 208 1, row 209 7, row 210 5, row 211 2,
    row 300 11, row 301 12, row 320 90].foldl (fun s p => wrBytes s p.1 p.2) (vState (cvtSlot n) 10)
  [(6, [(62, 2), (58, 6), (57, 1), (40, 1), (24, 100)]), (7, [(62, 2), (58, 11), (57, 1), (40, 6), (24, 200)]), (8, [(62, 2), (58, 5), (57, 1), (48, 2), (40, 1), (24, 300)]),
   (9, [(62, 2), (58, 5), (57, 1), (48, 2), (40, 1), (24, 300)])].foldl
    (fun s p => setReg s (coreReg 0 (oCoreVdesc + 8 * p.1)) (BitVec.ofNat 64 (bits p.2))) s
theorem wit_conversions_1 : ∀ n ∈ [0, 1, 2, 3], CommandDue (cvtState n) core0 .vector (vCmd (cvtSlot n)) ∧ (vxOf (cvtSlot n)).map (·.op) = [VOp.vcvt, .vcvtp, .vmxq, .vmxd][n]? := by
  unfold CommandDue; decide +kernel
theorem wit_conversions_2 : (vdesc (cvtState 3) core0 1).kind = 0 ∧ (vdesc (cvtState 3) core0 1).lstride = true ∧ (vpos (vdesc (cvtState 3) core0 1) 1 ≠ vpos (vdesc (cvtState 3) core0 1) 0) := by
  decide +kernel

def summSlot (op : VOp) (msk : Nat) : Nat := bits [(48, ((List.range 128).find? fun n => vopOf n == some op).getD 0), (40, 2), (26, 1), (24, msk), (20, if msk = 0 then 0 else 5), (0, 3)]
theorem wit_summaries : ∀ row ∈ summaryRows, CommandDue (vState (summSlot row.2 1) 10) core0 .vector (vCmd (summSlot row.2 1)) ∧ (vxOf (summSlot row.2 1)).map (·.op) = some row.2 := by
  unfold CommandDue; decide +kernel

/-- One matrix slot of each kind. -/
def mxSlot (n : Nat) : Nat := bits ([[(42, 1), (37, 5), (26, 100), (25, 1), (14, 101), (9, 31), (6, 7), (2, 15)], [(42, 1), (40, 1), (2, 9)], [(42, 1), (40, 2), (26, 100), (14, 101)],
  [(42, 1), (40, 3), (26, 100), (6, 1), (2, 3)], [(42, 2), (39, 0), (34, 1), (29, 30), (18, 100), (16, 1)], [(42, 3), (36, 62), (30, 1), (29, 1), (21, 0x80)],
  [(42, 4), (36, 62), (33, 1), (32, 1), (21, 1500)], [(42, 5), (38, 15), (34, 15), (33, 1), (27, 0), (22, 31), (11, 100), (10, 1)]].getD n [])
/-- A begun matrix command due in cycle 100; a block numbered 9 stands in the conveyor register. -/
def mxState (n : Nat) (seq : Nat) : State :=
  let s := runCore 0 { atWord with cmds := [{ vCmd (mxSlot n) with eng := .matrix, tbase := 36 }], conv := some ⟨5#256, 6#8, 1, seq, 2⟩ }
  wrBytes (wrBytes s (tileAddr 0 136 0) ((List.range 32).map fun i => BitVec.ofNat 8 (7 * i + 1))) (tileAddr 0 137 0) (List.replicate 32 0x7F#8)
def mxCmd (n : Nat) : Cmd := { vCmd (mxSlot n) with eng := .matrix, tbase := 36 }
theorem wit_matrix_1 : ∀ n ∈ [0, 1, 2, 3, 4, 5, 6, 7], CommandDue (mxState n 9) core0 .matrix (mxCmd n) := by
  unfold CommandDue; decide +kernel
theorem wit_matrix_2 : mxOf (mxSlot 0) = .wload .e2m1 100 true 101 31 7 15 ∧ mxOf (mxSlot 1) = .wloadConveyor 9 ∧ mxOf (mxSlot 2) = .wloadScales 100 101 ∧ mxOf (mxSlot 3) = .wloadSerial 100 1 3 ∧ mxOf (mxSlot 4) = .mstream .e4m3 2 30 100 false true 0 ∧ mxOf (mxSlot 5) = .mclear 62 2 true 0x80 ∧ mxOf (mxSlot 6) = .mdrain 62 2 true 1500 ∧ mxOf (mxSlot 7) = .mserial 16 16 true false 1 31 100 true := by
  decide +kernel

/-- An exact block 63 with window base −128 and full counts, and products of every size for its elements. -/
def exactState (wb : Nat) : State := setReg (wrBytes on (accAddr 0 63 0) (List.replicate 12 0xFF#8 ++ [0#8])) (accReg 0 63) (BitVec.ofNat 64 (bits [(16, 2 ^ 25 - 3), (12, 1), (0, wb)]))
def someProducts (i n : Nat) : List FVal := [.fin true 1 (-200), .fin (i = n) (2 ^ 24 - 1) (3 * i - 30), .fin false 0 500, .fin (n = 3) 5 (40 * n - 20)]
theorem wit_accumulate : accExact (exactState 0x80) core0 63 = true ∧ (∀ i ∈ [0, 1, 2, 3], ∀ n ∈ [0, 1, 2, 3], ∀ v ∈ someProducts i n, isNanVal v = false) := by
  decide +kernel

/-- A due TCOPY: source, destination, rows less one, transposing. -/
def copyState (src dst m tr : Nat) : State :=
  rowsFrom (runCore 0 { atWord with cmds := [cmdOf .move (bits [(52, 8), (41, src), (30, dst), (25, m), (24, tr)])] }) src (m + 1)
/-- A due RPOP of sixteen over three filled slots and one that is not. -/
def popState : State :=
  let f (n : Nat) (c : Bool) : Fill := { slot := n, tag := 1#20, at_ := n, rowsLeft := if c then 0 else 2, lo := 640, hi := 671, provisional := false, deferred := 0, counted := c, cancelled := false }
  runCore 0 { atWord with cmds := [cmdOf .move (bits [(52, 12), (48, 15)])], tasks := ⟨10, [0, 0, 0, 0], 10, [0, 0, 0, 0], 3, [f 15 true, f 0 true, f 1 true, f 2 false]⟩ :: List.replicate 3 ⟨0, [0, 0, 0, 0], 0, [0, 0, 0, 0], 0, []⟩ }
theorem wit_copy_pop_1 : CommandDue (copyState 100 104 3 0) core0 .move (cmdOf .move (bits [(52, 8), (41, 100), (30, 104), (25, 3)])) ∧ mvOf (bits [(52, 8), (41, 100), (30, 104), (25, 3)]) = .tcopy 100 104 3 false ∧ NothingLost (copyState 100 104 3 0) core0 (cmdOf .move (bits [(52, 8), (41, 100), (30, 104), (25, 3)])) := by
  unfold CommandDue NothingLost; decide +kernel
theorem wit_copy_pop_2 : CommandDue (copyState 128 1504 31 1) core0 .move (cmdOf .move (bits [(52, 8), (41, 128), (30, 1504), (25, 31), (24, 1)])) ∧ mvOf (bits [(52, 8), (41, 128), (30, 1504), (25, 31), (24, 1)]) = .tcopy 128 1504 31 true ∧ NothingLost (copyState 128 1504 31 1) core0 (cmdOf .move (bits [(52, 8), (41, 128), (30, 1504), (25, 31), (24, 1)])) := by
  unfold CommandDue NothingLost; decide +kernel
theorem wit_copy_pop_3 : CommandDue popState core0 .move (cmdOf .move (bits [(52, 12), (48, 15)])) ∧ mvOf (bits [(52, 12), (48, 15)]) = .rpop 15 ∧ (getCore popState core0).tasks.length = 4 := by
  unfold CommandDue; decide +kernel

/-- Due MPUTs of granules and of a tile, and MSCATTERs whose last index, of a limit of 100 and four granules apart, is as given. -/
def putSlot (g : Nat) : Nat := bits [(52, 9), (41, 100), (36, 31), (32, g), (11, 5)]
def putState (g : Nat) : State := rowsFrom (runCore 0 { atWord with cmds := [{ cmdOf .move (putSlot g) with addr := memBase 0 + 0x1000 }] }) 100 (2 * (g + 1))
def scatSlot : Nat := bits [(52, 10), (41, 100), (36, 31), (25, 300), (21, 9)]
def scatState (last : Nat) : State :=
  let s := wrBytes (runCore 0 { atWord with cmds := [cmdOf .move scatSlot] }) (tileAddr 0 300 0) (words32 [5, 0, 7, 3, 99, 1, 2, 4, 6, last])
  setReg (setReg s (coreReg 0 (oCoreIdx + 8 * 31)) (BitVec.ofNat 64 (bits [(36, 2), (0, 100)]))) (coreReg 0 (oCoreAdr + 8 * 31)) 0x8000#64
theorem wit_memory_writes_1 : ∀ g ∈ [0, 15], CommandDue (putState g) core0 .move { cmdOf .move (putSlot g) with addr := memBase 0 + 0x1000 } ∧ mvOf (putSlot g) = .mput 100 31 g 5 := by
  unfold CommandDue; decide +kernel
theorem wit_memory_writes_2 : ∀ last ∈ [98, 100], CommandDue (scatState last) core0 .move (cmdOf .move scatSlot) ∧ mvOf scatSlot = .mscatter 100 31 300 9 := by
  unfold CommandDue; decide +kernel
theorem wit_memory_writes_3 : (match indexAddrs (scatState 98) core0 31 ((List.range 10).map (indexOf ((List.range (idxRows 10)).map fun i => cmdRow (scatState 98) core0 (cmdOf .move scatSlot) (300 + i)))) with | .ok l => l.length | .error _ => 0) = 10 := by
  decide +kernel
theorem wit_memory_writes_4 : (match indexAddrs (scatState 100) core0 31 ((List.range 10).map (indexOf ((List.range (idxRows 10)).map fun i => cmdRow (scatState 100) core0 (cmdOf .move scatSlot) (300 + i)))) with | .ok _ => (0, 0) | .error e => e) = (1, 0x8000 + 64 * 400) := by
  decide +kernel
/-- An MSCATTER, alone in the core, whose eighth granule's cycle has come. -/
def sendsCmd : Cmd := { cmdOf .move scatSlot with done := true, acks := 10, outN := 7, sends := [(100, 0x1C0), (102, 0x200)] }
theorem wit_memory_writes_5 : (getCore (runCore 0 { atWord with cmds := [sendsCmd] }) core0).cmds = [sendsCmd] ∧ mvOf sendsCmd.slot = .mscatter 100 31 300 9 ∧ (∀ p ∈ [(102, 0x200)], (runCore 0 { atWord with cmds := [sendsCmd] }).cycle < p.1) := by
  decide +kernel

/-- The fetch engine at word 10, which is the given one; task 0's ring has sixteen slots from tile 20 on, its next slot is 15. -/
def fetchState (w : Nat) (x : CoreSt) : State :=
  setReg (runCore w { x with tasks := ⟨3, [0, 0, 0, 0], 10, [3, 0, 1, 2], 15, []⟩ :: List.replicate 3 ⟨0, [0, 0, 0, 0], 0, [0, 0, 0, 0], 0, []⟩ })
    (coreReg 0 oCoreRing) (BitVec.ofNat 64 (bits [(19, 1), (14, 31), (10, 15), (0, 20)]))
/-- RFILL of a tile with a gate on counter 31 that is open; the descriptor ends at the given address, advance −1. -/
def rfillWord (gm : Nat) : Nat := bits [(200, 0x3F), (52, 1), (51, 1), (46, 31), (30, 0xFFFF), (25, 15), (21, gm), (0, 2)]
def rfillState (gm a : Nat) : State :=
  setReg (fetchState (rfillWord gm) { atWord with outst := 31 }) (coreReg 0 (oCoreAdr + 120)) (BitVec.ofNat 64 (bits [(48, 0xFFFF), (0, a - 128)]))
def gatherWord : Nat := bits [(200, 0x3F), (52, 2), (25, 3), (14, 300), (10, 9)]
def gatherState (req : Bool) (last : Nat) : State :=
  let i := [(1, words32 [6, last, 0, 0, 0, 0, 0, 0]), (0, words32 [5, 0, 7, 3, 99, 1, 2, 4])]
  let s := fetchState gatherWord { atWord with idxReq := req, idxGot := if req then i else [] }
  setReg (setReg s (coreReg 0 (oCoreIdx + 24)) (BitVec.ofNat 64 (bits [(36, 2), (0, 100)]))) (coreReg 0 (oCoreAdr + 24)) 0x8000#64
theorem wit_ring_fills_1 : ∀ p ∈ [(15, 0x3FFFFFC00), (0, 0x3FFFFFFC0), (0, 0x400000000)], FetchSees (rfillState p.1 p.2) core0 (curFetch (rfillState p.1 p.2)) ∧ FourTasks (rfillState p.1 p.2) core0 ∧ slotX (curFetch (rfillState p.1 p.2)) = .rfill (some (31, 0xFFFF)) 15 p.1 2 ∧ ringEn (rfillState p.1 p.2) core0 0 = true ∧ fetchBlocked (rfillState p.1 p.2) core0 (some (31, 0xFFFF)) (txnCount (p.1 + 1)) = none ∧ pendingHit (getCore (rfillState p.1 p.2) core0) [nextSlotRange (rfillState p.1 p.2) core0] = none := by
  unfold FourTasks FetchSees; decide +kernel
theorem wit_ring_fills_2 : inOwnField core0 (adrVal (rfillState 15 0x3FFFFFC00) core0 15 + 64 * 2) 16 = true ∧ inOwnField core0 (adrVal (rfillState 0 0x400000000) core0 15 + 64 * 2) 1 = false := by
  decide +kernel
theorem wit_ring_fills_3 : ∀ req ∈ [true, false], ∀ last ∈ [99, 100], FetchSees (gatherState req last) core0 (curFetch (gatherState req last)) ∧ FourTasks (gatherState req last) core0 ∧ slotX (curFetch (gatherState req last)) = .rgather none 3 300 9 ∧ ringEn (gatherState req last) core0 0 = true ∧ fetchBlocked (gatherState req last) core0 none 10 = none ∧ tileInBound [tileR 300 (idxRows 10)] (taskTsize (gatherState req last) core0 0) = true ∧ pendingHit (getCore (gatherState req last) core0) [absR 0 (tileR 300 (idxRows 10)), nextSlotRange (gatherState req last) core0] = none := by
  unfold FourTasks FetchSees; decide +kernel

/-- RPULL of the last tile of the neighbour to the east. -/
def pullState : State := setReg (fetchState (bits [(200, 0x3F), (52, 3), (28, 1), (22, 47)]) atWord) (coreReg 1 oCoreTaskTs) 0x6000000#64
/-- Fills of core 0's task 3: one due, one withheld, one deferred, one whose rows are out, one cancelled and landed, one counted. -/
def landState : State :=
  let f (n : Nat) : Fill := { slot := n, tag := 1#20, at_ := n, rowsLeft := if n = 3 then 2 else 0, lo := 640, hi := 671, provisional := n == 1, deferred := if n = 2 then 1 else 0, counted := n == 5, cancelled := n == 4 }
  setReg (runCore 0 { atWord with tasks := List.replicate 3 ⟨0, [0, 0, 0, 0], 0, [0, 0, 0, 0], 0, []⟩ ++ [⟨0, [0, 0, 0, 0], 0, [0, 0, 0, 0], 0, [f 5, f 0, f 1, f 2, f 3, f 4, f 0]⟩] })
    (coreReg 0 (oCoreRing + 24)) (BitVec.ofNat 64 (bits [(19, 1), (14, 17)]))
theorem wit_ring_pull_1 : FetchSees pullState core0 (curFetch pullState) ∧ FourTasks pullState core0 ∧ slotX (curFetch pullState) = .rpull none 1 47 ∧ ringEn pullState core0 (getCore pullState core0).task = true ∧ fetchBlocked pullState core0 none 0 = none ∧ pendingHit (getCore pullState core0) [nextSlotRange pullState core0] = none ∧ neighbour core0 1 = some 1 ∧ 32 * 47 + 31 < taskTsize pullState 1 (getCore pullState 1).task := by
  unfold FourTasks FetchSees; decide +kernel
/-- The neighbour's range ends within the tile. -/
def pullEdge : State := setReg pullState (coreReg 1 oCoreTaskTs) 0x5FF0000#64
theorem wit_ring_pull_3 : FetchSees pullEdge core0 (curFetch pullEdge) ∧ FourTasks pullEdge core0 ∧ fetchBlocked pullEdge core0 none 0 = none ∧ coreFenced pullEdge 1 = false ∧ taskTsize pullEdge 1 (getCore pullEdge 1).task ≤ 32 * 47 + 31 := by
  unfold FourTasks FetchSees; decide +kernel
/-- Core 7 pulls from core 8, whose cluster is fenced. -/
def core7 : CoreId := ⟨7, by decide⟩
def pullFenced : State :=
  let w := bits [(200, 0x3F), (52, 3), (28, 1), (22, 47)]
  { regsOf (wrBytes on (imemAddr 7 10) (natLe 32 w)) [(coreReg 7 oCoreTaskImem, 0x1FF0000), (coreReg 7 oCoreTaskTs, 0x6000000), (coreReg 7 oCoreRing, bits [(19, 1), (14, 31), (10, 15), (0, 20)]), (cluReg (cluOf 8) oCluFenceStatus, 1)] with
      cores := [(7, { atWord with tasks := ⟨3, [0, 0, 0, 0], 10, [3, 0, 1, 2], 15, []⟩ :: List.replicate 3 ⟨0, [0, 0, 0, 0], 0, [0, 0, 0, 0], 0, []⟩ })] }
theorem wit_ring_pull_4 : FetchSees pullFenced core7 ((fetchWord pullFenced core7).getD 0) ∧ FourTasks pullFenced core7 ∧ slotX ((fetchWord pullFenced core7).getD 0) = .rpull none 1 47 ∧ ringEn pullFenced core7 0 = true ∧ fetchBlocked pullFenced core7 none 0 = none ∧ pendingHit (getCore pullFenced core7) [nextSlotRange pullFenced core7] = none ∧ neighbour core7 1 = some 8 ∧ coreFenced pullFenced 8 = true := by
  unfold FourTasks FetchSees; decide +kernel
theorem wit_ring_pull_2 : engRuns landState core0 = true ∧ (getCore landState core0).tasks.length = 4 := by
  decide +kernel

def advState (op lvl arg : Nat) : State := fetchState (bits [(241, op), (239, lvl), (228, arg), (52, 8)]) atWord
/-- A fetch pointer past the range; a word whose reserved bit is set. -/
def endState : State := setReg (advState 0 0 0) (coreReg 0 oCoreTaskImem) 0x1090000#64
def badFetch : State := fetchState (bits [(244, 1)]) atWord
theorem wit_fetch_advance_1 : ∀ p ∈ [(0, 0, 0), (1, 3, 2047), (2, 1, 3), (3, 0, 10), (3, 0, 11), (3, 1, 10), (4, 0, 255), (5, 0, 0)], FetchSees (advState p.1 p.2.1 p.2.2) core0 (curFetch (advState p.1 p.2.1 p.2.2)) ∧ FourTasks (advState p.1 p.2.1 p.2.2) core0 ∧ isFetchSide (slotX (curFetch (advState p.1 p.2.1 p.2.2))) = false ∧ wDp (curFetch (advState p.1 p.2.1 p.2.2)) = false ∧ wSb (curFetch (advState p.1 p.2.1 p.2.2)) = false ∧ (getCore (advState p.1 p.2.1 p.2.2) core0).idxReq = false := by
  unfold FourTasks FetchSees; decide +kernel
theorem wit_fetch_advance_2 : fetchReady endState core0 = true ∧ fetchWord endState core0 = none ∧ fetchReady badFetch core0 = true ∧ fetchWord badFetch core0 = some (curFetch badFetch) ∧ wordLegal badFetch core0 (curFetch badFetch) = false := by
  decide +kernel

/-- An entry of the write combiner, its byte 31 valid, and with all 32 bytes valid. -/
def entryOf (row : Nat) (full : Bool) : CombEntry := ⟨row, if full then List.replicate 32 (some 0x5A#8) else partRow 31 [0x77#8], 90, false, none⟩
def bgWriteM : BgWrite := ⟨.master, 1535, partRow 30 [1#8, 2#8]⟩
def combState (l : List CombEntry) : State := runCore 0 { atWord with bgw := [bgWriteM], comb := l }
def flushState : State := runCore 0 { atWord with comb := [entryOf 33 false, entryOf 1535 true, entryOf 64 false] }
theorem wit_combiner_1 : ∀ n ∈ [0, 1535], ∀ m ∈ [0, 7], bgRuns (combState (entryOf n false :: List.replicate m (entryOf 7 false))) core0 = true ∧ (getCore (combState (entryOf n false :: List.replicate m (entryOf 7 false))) core0).bgw = [bgWriteM] ∧ bgWriteM.src = .master ∧ (getCore (combState (entryOf n false :: List.replicate m (entryOf 7 false))) core0).combCy ≠ some 100 := by
  decide +kernel
theorem wit_combiner_2 : bgRuns flushState core0 = true ∧ ((getCore flushState core0).comb.find? fun y => entryReady flushState.cycle y && rowSide y.row == true) = some (entryOf 1535 true) ∧ ((getCore flushState core0).comb.find? fun y => entryReady flushState.cycle y && rowSide y.row == !true) = none ∧ flushFree flushState core0 true = true ∧ (entryOf 1535 true).bytes.length = 32 := by
  decide +kernel
/-- A row of a plain message waits to land, or a combined row; an entry is kept for the waiting write; a ready entry is kept for it. -/
def heldUpState (x : CoreSt) : State := setReg (runCore 0 { x with bgw := [bgWriteM] }) (coreReg 0 (oCoreChan + 496)) (BitVec.ofNat 64 (bits [(62, 2), (57, 3), (30, 1534)]))
def arrivingBeat : MBeat := ⟨true, true, 0, 62, 0, 0, 0x77#20, List.replicate 32 0x3C#8, true, 63, 0⟩
theorem wit_combiner_3 : arrivalWaits (heldUpState { atWord with aq := [[], [⟨arrivingBeat, 99⟩], [], []] }) core0 = true ∧ combinedWaits (heldUpState { atWord with combs := [⟨62, 1534, [], 100, false, 0x77#20, 1⟩] }) core0 = true := by
  decide +kernel
theorem wit_combiner_4 : (let s := runCore 0 { atWord with bgw := [bgWriteM], comb := List.replicate 7 (entryOf 7 false), combKept := [(4, 1535)] }; bgRuns s core0 = true ∧ arrivalWaits s core0 = false ∧ combinedWaits s core0 = false ∧ (4, bgWriteM.row) ∈ (getCore s core0).combKept ∧ ∀ e ∈ (getCore s core0).comb, e.row ≠ bgWriteM.row) := by
  decide +kernel
theorem wit_combiner_5 : (let e : CombEntry := ⟨64, partRow 31 [0x77#8], 99, true, some (4, 1535)⟩; let s := runCore 0 { atWord with bgw := [bgWriteM], comb := [e] }; ((getCore s core0).comb.find? fun y => entryReady s.cycle y && rowSide y.row == false) = some e ∧ flushFree s core0 false = true) := by
  decide +kernel

/-- A read of row 1535 from a source, with an open entry over its last byte. -/
def bgState (r : BgRd) : State :=
  let s := rowsFrom (runCore 0 { atWord with bgr := [⟨r, 1535⟩], comb := [entryOf 1535 false] }) 1535 1
  modClu (setCore s 1 { mode := .run }) 0 fun x => { x with tsld := some (15, 98), tsldFree := some 99, freeAt := 102 }
theorem wit_background_1 : ∀ r ∈ [BgRd.master 49128 8, .index 0 1, .rpull 1 1 95 704, .steward 28, .egress 9 1 1], coreFenced (bgState r) core0 = false ∧ combReadWaits (bgState r) core0 true = false ∧ portStood (bgState r) core0 ⟨r, 1535⟩ = true ∧ (bgState r).clocksOn = true ∧ firstRead (bgState r) core0 true = some ⟨r, 1535⟩ ∧ bgReadFree (bgState r) core0 true = true ∧ (getClu (bgState r) (cluOf core0)).tsld = some (15, 98) := by
  decide +kernel
/-- The port has not yet stood free for a steward's read; a combining row comes first; the core clock is stopped. -/
theorem wit_background_2 : (let s := modClu (bgState (.steward 28)) 0 fun x => { x with tsldFree := none }; s.clocksOn = true ∧ firstRead s core0 true = some ⟨.steward 28, 1535⟩ ∧ portStood s core0 ⟨.steward 28, 1535⟩ = false) := by
  decide +kernel
theorem wit_background_3 : (let s := regsOf (modCore (bgState (.index 0 1)) 0 fun x => { x with aq := [[], [⟨arrivingBeat, 99⟩], [], []], lanes := [some ⟨1, 62, 0, 100, false, false, []⟩, none] }) [(coreReg 0 (oCoreChan + 496), bits [(62, 2), (57, 3), (41, 1), (30, 1535)])]; s.clocksOn = true ∧ firstRead s core0 true = some ⟨.index 0 1, 1535⟩ ∧ combReadWaits s core0 true = true) := by
  decide +kernel
theorem wit_background_4 : (let s := { bgState (.master 49128 8) with clocksOn := false }; s.clocksOn = false ∧ firstRead s core0 true = some ⟨.master 49128 8, 1535⟩ ∧ coreFenced s core0 = false) := by
  decide +kernel

def offState : State := { runCore 0 { comb := [entryOf 3 false] } with clocksOn := false }
def lastTile : Fin 49152 := 49148
theorem wit_tile_writes_1 : Admitted (runCore 0 atWord) .boot true (coreBase core0 + lastTile) 4 ∧ (runCore 0 atWord).clocksOn = true := by
  unfold Admitted; decide +kernel
theorem wit_tile_writes_2 : Admitted offState .boot true (coreBase core0 + lastTile) 4 ∧ offState.clocksOn = false ∧ (∀ e ∈ (getCore offState core0).comb, e.row ≠ lastTile.val / 32) := by
  unfold Admitted; decide +kernel
theorem wit_tile_writes_3 : reaches (runCore 0 atWord) .debug = true ∧ (screenAccess (runCore 0 atWord) .debug true (coreBase core0 + lastTile) 4).1 ≠ .ok := by
  decide +kernel
theorem wit_tile_writes_4 : Admitted offState .boot true (coreBase core0 + 3 * 32) 4 ∧ ∃ e ∈ (getCore offState core0).comb, e.row = 3 * 32 / 32 := by
  unfold Admitted; decide +kernel

/-- An MSEND of two rows on channel 63 to core 1, its second row read; a row of it at the head of the send buffer with one
credit and a grant to the east. -/
def sendCmd : Cmd := { cmdOf .send (bits [(52, 11), (41, 1534), (36, 1), (30, 63)]) with begun := some 97, rows := 1, addr := 9 }
def beatTo (d ch gen : Nat) (first last : Bool) : MBeat := ⟨first, last, gen, ch, d, 0, 0x77#20, List.replicate 32 0x3C#8, true, 63, 0⟩
def sendState (x : CoreSt) : State :=
  [(coreReg 0 (oCoreChan + 504), bits [(62, 1), (60, 1), (49, 62), (29, 1)]), (chStat 0 63, bits [(34, 1)]), (coreReg 0 (oCoreSlot + 8 * 36), bits [(12, 2), (9, 5), (0, 3)])].foldl
    (fun s p => setReg s p.1 (BitVec.ofNat 64 p.2)) (runCore 0 x)
def departState : State := sendState { atWord with sendBuf := [⟨beatTo 1 62 9 true false, 90, 99⟩, ⟨beatTo 1 62 9 false true, 90, 100⟩] }
theorem wit_send_port_1 : engRuns (sendState { atWord with cmds := [sendCmd] }) core0 = true ∧ sendingCmd (sendState { atWord with cmds := [sendCmd] }) core0 = some sendCmd ∧ decodeMove sendCmd.slot = some (.msend 1534 1 63) := by
  decide +kernel
theorem wit_send_port_2 : meshRuns departState = true ∧ coreFenced departState core0 = false ∧ (getCore departState core0).sentAt ≠ some 100 ∧ sendHead departState core0 = some ⟨beatTo 1 62 9 true false, 90, 99⟩ ∧ getB departState (chStat 0 63) 63 = false ∧ slotDest departState core0 4 100 = chDir departState core0 63 + 1 ∧ 0 < getF departState (chStat core0 63) 39 34 ∧ neighbour core0 (chDir departState core0 63) = some 1 := by
  decide +kernel

/-- A beat at the north input (on to the south) and one at the west input (into the core), in cycle 100; a credit come back. -/
def routerState : State := sendState { atWord with inb := [⟨0, 100, beatTo 1024 5 9 true true⟩, ⟨3, 100, beatTo 0 5 9 true true⟩], credIn := [⟨63, 101, false⟩, ⟨63, 100, true⟩] }
theorem wit_routers_1 : meshRuns routerState = true ∧ coreFenced routerState core0 = false ∧ inputBeat routerState core0 0 = some ⟨0, 100, beatTo 1024 5 9 true true⟩ ∧ (readCheck routerState core0 0).1 = true ∧ slotDest routerState core0 0 100 = 3 ∧ neighbour core0 2 = some 1024 := by
  decide +kernel
theorem wit_routers_2 : inputBeat routerState core0 3 = some ⟨3, 100, beatTo 0 5 9 true true⟩ ∧ (readCheck routerState core0 3).1 = true ∧ slotDest routerState core0 3 100 = 5 ∧ ((getCore routerState core0).aq.getD 3 []).length < 32 := by
  decide +kernel
theorem wit_routers_3 : ((getCore routerState core0).credIn.find? fun y => decide (y.at_ ≤ routerState.cycle)) = some ⟨63, 100, true⟩ := by
  decide +kernel
/-- Core 128, the first of field 1, reads a beat from field 0, which lags by seven half cycles. -/
def crossState (lag : Nat) : State := modField { setCore on 128 { mode := .run, inb := [⟨3, 100, beatTo 128 5 9 true true⟩] } with clocksOn := true } 0 fun x => { x with lag := lag }
theorem wit_routers_4 : (let c : CoreId := ⟨128, by decide⟩; meshRuns (crossState 7) = true ∧ inputBeat (crossState 7) c 3 = some ⟨3, 100, beatTo 128 5 9 true true⟩ ∧ (readCheck (crossState 7) c 3).1 = false ∧ (readCheck (crossState 6) c 3).1 = true) := by
  decide +kernel

/-- Core 0 in generation 9 with plain channel 62, of two rows from row 1534 on, its write position 1. -/
def landerState (x : CoreSt) : State :=
  [(coreReg 0 (oCoreChan + 496), bits [(62, 2), (57, 3), (41, 1), (30, 1534)]), (chStat 0 62, bits [(21, 1)]), (coreReg 0 oCoreCtrStatus, bits [(16, 9)])].foldl
    (fun s p => setReg s p.1 (BitVec.ofNat 64 p.2)) (runCore 0 x)
def takeState (gen : Nat) : State := landerState { atWord with lanes := [some ⟨2, 5, 0, 100, false, true, []⟩, none], aq := [[], [⟨beatTo 0 62 gen true true, 99⟩], [], []] }
def laneOf : Lane := ⟨1, 62, 0, 100, false, true, []⟩
def rowState : State := landerState { atWord with aq := [[], [⟨beatTo 0 62 9 true true, 99⟩], [], []], lanes := [none, some laneOf] }
def combRow : CombRow := ⟨62, 1534, List.replicate 32 0x3C#8, 100, false, 0x77#20, 1⟩
def sumState : State := landerState { atWord with combs := [{ combRow with at_ := 101, row := 1535 }, combRow], comb := (List.range 7).map (fun i => entryOf (40 * i) false) ++ [entryOf 1534 false] }
theorem wit_landing_1 : ∀ gen ∈ [9, 10], meshRuns (takeState gen) = true ∧ coreFenced (takeState gen) core0 = false ∧ (getCore (takeState gen) core0).lanes.length = 2 ∧ (getCore (takeState gen) core0).lanes.getD 1 none = none ∧ (getCore (takeState gen) core0).laneFree.getD 1 0 ≤ 100 ∧ laneIdle (takeState gen) core0 0 = false ∧ takeDir (takeState gen) core0 1 = some 1 ∧ queueHead (takeState gen) core0 1 = some (beatTo 0 62 gen true true) ∧ chanRole (takeState gen) core0 62 = 2 := by
  decide +kernel
theorem wit_landing_4 : (let s := landerState { atWord with aq := [[], [⟨beatTo 0 62 9 true true, 99⟩], [], []] }; (getCore s core0).lanes.getD 0 none = none ∧ takeDir s core0 0 = some 1 ∧ queueHead s core0 1 = some (beatTo 0 62 9 true true) ∧ (beatTo 0 62 9 true true).dst = 0 ∧ (beatTo 0 62 9 true true).ok = true) := by
  decide +kernel
theorem wit_landing_2 : (getCore rowState core0).lanes.getD 1 none = some laneOf ∧ queueHead rowState core0 1 = some (beatTo 0 62 9 true true) ∧ lengthOk rowState core0 laneOf (beatTo 0 62 9 true true) = true ∧ chanRole rowState core0 62 = 2 ∧ (getCore rowState core0).combCy ≠ some 100 ∧ (getCore rowState core0).bgw = [] ∧ (getCore rowState core0).combs = [] ∧ (getCore rowState core0).comb = [] := by
  decide +kernel
/-- All eight entries are open or kept, one of them for the row. -/
theorem wit_landing_5 : (let x := getCore rowState core0; let s := setCore rowState core0 { x with comb := List.replicate 7 (entryOf 64 false), combKept := [(1, 1535)] }; (getCore s core0).lanes.getD 1 none = some laneOf ∧ chBase s core0 62 + (getF s (chStat core0 62) 29 21 + 0) % chSize s core0 62 = 1535 ∧ (1, 1535) ∈ (getCore s core0).combKept ∧ ¬ ((getCore s core0).comb.length + (getCore s core0).combKept.length < 8) ∧ ∀ e ∈ (getCore s core0).comb, e.row ≠ 1535) := by
  decide +kernel
theorem wit_landing_3 : ((getCore sumState core0).combs.find? fun y => decide (y.at_ ≤ sumState.cycle)) = some combRow ∧ (getCore sumState core0).bgw = [] ∧ arrivalWaits sumState core0 = false ∧ combRow.data.length = 32 ∧ (getCore sumState core0).combCy ≠ some 100 ∧ (∀ e ∈ (getCore sumState core0).comb, e.row = combRow.row → e.bytes.length = 32) ∧ (∃ e ∈ (getCore sumState core0).comb, e.row = combRow.row) := by
  decide +kernel

/-- Core 0, alone on a line, has arrived there in cycle 50; it adds to counter 31 and belongs to group 15. -/
def lineAt (n : Nat) : State :=
  setGar (regsOf (member n (runCore 0 { atWord with mode := .run })) [(garReg 0 n, bits [(10, 1), (6, 15), (0, 31), (16, 65535)])]) n { last := 50 }
/-- The line asks for fallback, or runs in it; group 15 expects one arrival. -/
def fallbackAt (ctl count : Nat) : State := regsOf (lineAt 6) [(modReg (oGarLineCtl + 48), ctl), (groupReg 6 15, 1 + count * 2 ^ 32)]
theorem wit_garnet_lines_1 : ∀ n ∈ [0, 6], (lineAt n).clocksOn = true ∧ n ≠ realignLine (lineAt n) ∧ lineFull (lineAt n) n = true ∧ releaseCycle (lineAt n) n ≤ (lineAt n).cycle ∧ (getGar (lineAt n) n).hush = false := by
  decide +kernel
theorem wit_garnet_lines_2 : Admitted (lineAt 6) .boot true (modReg (oGarLineCtl + 48)) 8 := by
  unfold Admitted; decide +kernel
theorem wit_garnet_lines_3 : getB (fallbackAt 256 0) (modReg (oGarLineCtl + 48)) 8 = true ∧ getB (fallbackAt 256 0) (modReg (oGarLineCtl + 48)) 0 = false := by
  decide +kernel
theorem wit_garnet_lines_4 : getB (fallbackAt 1 0) (modReg (oGarLineCtl + 48)) 8 = false ∧ getB (fallbackAt 1 0) (modReg (oGarLineCtl + 48)) 0 = true ∧ ∀ g < 16, getF (fallbackAt 1 0) (groupReg 6 g) 52 32 = 0 := by
  decide +kernel
theorem wit_garnet_lines_5 : (fallbackAt 257 1).clocksOn = true ∧ 6 ≠ realignLine (fallbackAt 257 1) ∧ getB (fallbackAt 257 1) (modReg (oGarLineCtl + 48)) 0 = true ∧ getF (fallbackAt 257 1) (groupReg 6 15) 20 0 ≠ 0 ∧ getF (fallbackAt 257 1) (groupReg 6 15) 52 32 = getF (fallbackAt 257 1) (groupReg 6 15) 20 0 := by
  decide +kernel
theorem wit_garnet_lines_6 : (∀ c ∈ garMembers (fallbackAt 257 1) 6, getF (fallbackAt 257 1) (garReg c 6) 9 6 = 15 → coreFenced (fallbackAt 257 1) c = false) ∧ 0 ∈ garMembers (fallbackAt 257 1) 6 ∧ getF (fallbackAt 257 1) (garReg 0 6) 9 6 = 15 := by
  decide +kernel
theorem wit_garnet_lines_7 : (let s := setReg (fallbackAt 257 1) (cluReg 0 oCluFenceStatus) 1#64; s.clocksOn = true ∧ getF s (groupReg 6 15) 52 32 = getF s (groupReg 6 15) 20 0 ∧ ∃ c ∈ garMembers s 6, getF s (garReg c 6) 9 6 = 15 ∧ coreFenced s c = true) := by
  decide +kernel

/-- Core 0, alone on the realign line, holds at its step boundary. -/
def holdState (x : CoreSt) : State := member 7 (runCore 0 { x with sbHold := true, issIdx := 77 })
def realState (ctl : Nat) : State :=
  { setGar (regsOf (holdState { atWord with sbArrived := true, realArr := some 30 }) [(garReg 0 7, bits [(10, 1), (16, 65535)]), (modReg oModCkptCtl, ctl), (coreReg 0 oCoreCtrStatus, 15 * 2 ^ 16), (fieldReg 3 oFldEnergy, 12345)])
      7 { last := 30 } with realDue := if ctl = 2 then some 94 else none }
def overState : State := regsOf (holdState { atWord with sbArrived := true, realArr := some 30, lastTag := 0xABCDE#20 }) [(modReg oGarRealign, bits [(0, 7), (32, 69)])]
theorem wit_realign_boundary_1 : (holdState atWord).clocksOn = true ∧ coreFenced (holdState atWord) core0 = false ∧ ((getCore (holdState atWord) core0).mode = .run ∧ (getCore (holdState { atWord with mode := .held }) core0).mode = .held ∧ (getCore (holdState { atWord with mode := .drain }) core0).mode = .drain) ∧ (getCore (holdState atWord) core0).sbHold = true ∧ (getCore (holdState atWord) core0).sbArrived = false ∧ (getCore (holdState atWord) core0).cmds = [] ∧ (getCore (holdState atWord) core0).lateW = [] ∧ (getCore (holdState atWord) core0).considered ≠ some 100 ∧ (∀ u ∈ (getCore (holdState atWord) core0).tasks, ∀ f ∈ u.fills, f.deferred ≠ 0 ∨ f.rowsLeft = 0) ∧ MayArrive (holdState atWord) core0 (realignLine (holdState atWord)) := by
  unfold MayArrive; decide +kernel
theorem wit_realign_boundary_2 : ∀ v ∈ [0, 1], (realState v).clocksOn = true ∧ 7 = realignLine (realState v) ∧ lineFull (realState v) 7 = true ∧ releaseCycle (realState v) 7 ≤ (realState v).cycle ∧ (getGar (realState v) 7).hush = false ∧ (realState v).realDue = none ∧ getB (realState v) (modReg oModCkptCtl) 0 = decide (v = 1) ∧ ckptBoundary (realState v) = true := by
  decide +kernel
theorem wit_realign_boundary_3 : realignFree (realState 2) = true ∧ getF (realState 2) (modReg oModTwinCtl) 3 2 = 0 := by
  decide +kernel
theorem wit_realign_boundary_4 : overState.clocksOn = true ∧ (getCore overState core0).realArr = some 30 ∧ (getCore overState core0).mode = .run ∧ (getCore overState core0).sbHold = true ∧ getB overState (modReg oModCkptStatus) 63 = false ∧ 30 + getF overState (modReg oGarRealign) 63 32 < overState.cycle := by
  decide +kernel

/-- Core 0 waits on counter 0, which nothing can increment any more; the others are stopped and core 63 of the cluster is held. -/
def deadState (old : Nat) : State :=
  let s := regsOf (runCore 0 { atWord with waitSince := some 40, lastTag := 3#20 }) [(cluReg 0 oCluWatchCtl, 1), (cluReg 0 oCluDeadlock, old)]
  let s := (List.range 63).foldl (fun s i => setCore s (coreOfClu 0 (i + 1)) { mode := if i = 62 then .held else .stopped }) s
  modClu s 0 fun y => { y with mode := .halted, closedFor := 16 }
def fenceState : State := modClu (modField (runCore 0 atWord) 0 fun x => { x with fenceReq := some 0xA5, txns := [⟨0, 1, 0, false, 64, 8, 0, .master .boot, .input, [0], [], .ok, 0, 5, 0, 0, 0⟩] }) 0 fun y => { y with fenceReq := some 7 }
theorem wit_deadlock_1 : ∀ old ∈ [0, 65535 * 2 ^ 32], (deadState old).clocksOn = true ∧ (getClu (deadState old) 0).closedFor = 16 ∧ deadNow (deadState old) 0 = true ∧ waitClosed (deadState old) 0 = true := by
  decide +kernel
theorem wit_deadlock_2 : Admitted on .boot true (fieldReg 63 oFldFenceCtl) 8 ∧ (0xFF01#64).getLsbD 0 = true ∧ fieldFenced on 63 = false ∧ (getField on 63).fenceReq = none := by
  unfold Admitted; decide +kernel
theorem wit_deadlock_3 : Admitted on .boot true (cluReg 16383 oCluFenceCtl) 8 ∧ (0xFF01#64).getLsbD 0 = true ∧ cluFenced on 16383 = false ∧ (getClu on 16383).fenceReq = none := by
  unfold Admitted; decide +kernel
theorem wit_deadlock_4 : (getField fenceState 0).fenceReq = some 0xA5 := by
  decide +kernel
theorem wit_deadlock_5 : (getClu fenceState 0).fenceReq = some 7 := by
  decide +kernel
/-- The module stands in an idle hush. -/
def stillState : State := { on with clocksOn := false, clk := { on.clk with kind := 2 } }
theorem wit_deadlock_6 : Admitted stillState .boot true (fieldReg 63 oFldFenceCtl) 8 ∧ Admitted stillState .boot true (cluReg 16383 oCluFenceCtl) 8 ∧ stillState.clk.kind ≠ 0 ∧ fieldFenced stillState 63 = false ∧ cluFenced stillState 16383 = false ∧ (getField stillState 63).fenceReq = none ∧ (getClu stillState 16383).fenceReq = none := by
  unfold Admitted; decide +kernel
theorem wit_deadlock_7 : ∀ cause ∈ [2, 3], (getField (modField on 0 fun x => { x with fenceReq := some cause }) 0).fenceReq = some cause := by
  decide +kernel

/-- A gateway transaction of field 0. -/
def txnOf (cls : Nat) (write : Bool) (dest : TxnDest) (stage : TxnStage) : Txn :=
  ⟨7, cls, 0, write, 130, 100, 0x11#20, dest, stage, [0, 1], if write then (List.range 100).map (BitVec.ofNat 8) else [], .ok, 0, 5, 0, 0, 0⟩
/-- At Quartz time q, with transactions of field 0 and a window open to every class. -/
def gwState (q : Nat) (l : List Txn) : State :=
  modField (regsOf (runCore 0 atWord) [(modReg oQtzTime, q)]) 0 fun x => { x with txns := l }
/-- Granules 0 and 1 of a write of 200 bytes from 65: the second is covered. -/
def bigWrite : Txn := { txnOf 1 true (.master .boot) .tracker with addr := 65, len := 200, left := [0, 1], data := (List.range 200).map (BitVec.ofNat 8), admitted := 5 }
def readTxn : Txn := { txnOf 2 false (.master .host) .tracker with addr := 65, len := 100, left := [0, 1], data := List.replicate 100 0#8 }
def answer (cls : Nat) (write : Bool) (dest : TxnDest) : Txn := { txnOf cls write dest .answered with left := [], data := [1#8, 2#8, 3#8, 4#8], len := 4, served := 80 }
theorem wit_gateway_1 : (gwState 200 [{ txnOf 0 true (.put 3) .port with stage := .port }]).clocksOn = true ∧ cluFenced (gwState 200 [txnOf 0 true (.put 3) .port]) 0 = false ∧ portTxns (gwState 200 [txnOf 0 true (.put 3) .port]) 0 = [txnOf 0 true (.put 3) .port] ∧ (∀ v ∈ (getField (gwState 200 [txnOf 0 true (.put 3) .port]) 0).txns, v.stage ≠ .core) ∧ compiledGranted (gwState 200 [txnOf 0 true (.put 3) .port]) (txnOf 0 true (.put 3) .port) = false := by
  decide +kernel
theorem wit_gateway_2 : ∀ cls ∈ [1, 2, 3], fieldFenced (gwState 200 [txnOf cls true (.master .boot) .input]) 0 = false ∧ getB (gwState 200 [txnOf cls true (.master .boot) .input]) (fieldReg 0 oGwStatus) 44 = false ∧ OneAtInput (gwState 200 [txnOf cls true (.master .boot) .input]) 0 (txnOf cls true (.master .boot) .input) := by
  unfold OneAtInput; decide +kernel
theorem wit_gateway_3 : Serves (gwState 131 [bigWrite]) 0 1 bigWrite 0 ∧ granuleAt bigWrite 0 = 64 := by
  unfold Serves; decide +kernel
theorem wit_gateway_4 : Serves (gwState 131 [{ bigWrite with left := [1] }]) 0 2 { bigWrite with left := [1] } 1 ∧ bigWrite.addr ≤ granuleAt bigWrite 1 ∧ granuleAt bigWrite 1 + 64 ≤ bigWrite.addr + bigWrite.len ∧ bigWrite.data.length = bigWrite.len := by
  unfold Serves; decide +kernel
theorem wit_gateway_5 : Serves (gwState 131 [readTxn]) 0 1 readTxn 0 ∧ readTxn.write = false ∧ poisoned (gwState 131 [readTxn]) (granuleAt readTxn 0) = false := by
  unfold Serves; decide +kernel
theorem wit_gateway_6 : nextAnswer (gwState 250 [answer 1 false (.master .boot)]) 0 false = some (answer 1 false (.master .boot)) := by
  decide +kernel
theorem wit_gateway_7 : nextAnswer (gwState 250 [answer 0 false (.overlay 254 32 1)]) 0 false = some (answer 0 false (.overlay 254 32 1)) := by
  decide +kernel
theorem wit_gateway_8 : nextAnswer (gwState 250 [answer 2 true (.master .host)]) 0 true = some (answer 2 true (.master .host)) := by
  decide +kernel
theorem wit_gateway_9 : Admitted (gwState 200 []) .boot true 0xFFFFFFFFF8 8 ∧ gwBusy (gwState 200 []) 63 (classOf .boot) = false := by
  unfold Admitted; decide +kernel

/-- A brace runs: the host's and RDMA requests are refused. -/
def braceState : State := { gwState 200 [] with pwr := { (gwState 200 []).pwr with brace := some 100 } }
/-- The last window of the host's table, and of the compiled tasks', is open on all of field 0; the gateway's counts allow it. -/
def openTo (cls : Nat) (s : State) : State :=
  { regsOf s [(fieldReg 0 oSvcGwwin + 0x100 * (cls - 1) + 0xF0, 0x3FFFFF), (fieldReg 0 oSvcGwperm + 0x100 * (cls - 1) + 0xF0, 2 ^ 63 + 2 ^ 62 + 2 ^ 61 + 1)] with host := { s.host with link := true, perst := false } }
def compiledState (q : Nat) : State := openTo 1 (gwState q [txnOf 0 true (.put 3) .input])
theorem wit_gateway_busy_1 : Admitted (openTo 3 braceState) .host true 64 8 ∧ gwBusy (openTo 3 braceState) 0 (classOf .host) = true := by
  unfold Admitted; decide +kernel
theorem wit_gateway_busy_2 : Admitted (openTo 3 (gwState 200 [])) .host true 64 8 ∧ gwBusy (openTo 3 (gwState 200 [])) 0 (classOf .host) = false := by
  unfold Admitted; decide +kernel
theorem wit_gateway_busy_3 : fieldFenced (compiledState 200) 0 = false ∧ getB (compiledState 200) (fieldReg 0 oGwStatus) 44 = false ∧ OneAtInput (compiledState 200) 0 (txnOf 0 true (.put 3) .input) := by
  unfold OneAtInput; decide +kernel
theorem wit_gateway_busy_4 : (let s := openTo 1 (gwState 200 [txnOf 0 true (.put 3) .port]); s.clocksOn = true ∧ cluFenced s 0 = false ∧ portTxns s 0 = [txnOf 0 true (.put 3) .port] ∧ (∀ v ∈ (getField s 0).txns, v.stage ≠ .core) ∧ compiledGranted s (txnOf 0 true (.put 3) .port) = true) := by
  decide +kernel

/-- Quartz time 512: a scrub slot of every channel; field 63, position 8388609 of channel 31. -/
def scrubState (bad : List Nat) : State :=
  modField (regsOf on [(modReg oQtzTime, 512), (fieldReg 63 oGwScrub, 2 ^ 63)]) 63 fun x => { x with scrub := smPut 0 31 8388609 x.scrub, poison := bad }
def probeState (running : Option Nat) : State :=
  modField (regsOf on [(fieldReg 0 oGwProbeBase, 0x3FFFFFFC0), (fieldReg 0 oGwProbeSize, 64)]) 0 fun x => { x with probe := running, txns := [⟨1, 1, 0, true, 0x3FFFFFFF8, 8, 0, .master .boot, .tracker, [0], [], .ok, 0, 5, 6, 0, 0⟩, ⟨2, 1, 0, true, 0x3FFFFFFB8, 8, 0, .master .boot, .tracker, [0], [], .ok, 0, 5, 6, 0, 0⟩] }
theorem wit_upkeep_1 : Scrubs (scrubState []) 63 31 ∧ poisoned (scrubState []) (granuleOf 63 31 8388609) = false := by
  unfold Scrubs; decide +kernel
theorem wit_upkeep_2 : Scrubs (scrubState [granuleOf 63 31 8388609 / 64]) 63 31 ∧ poisoned (scrubState [granuleOf 63 31 8388609 / 64]) (granuleOf 63 31 8388609) = true := by
  unfold Scrubs; decide +kernel
theorem wit_upkeep_3 : Admitted (probeState none) .boot true (fieldReg 0 oGwProbeSize) 8 := by
  unfold Admitted; decide +kernel
theorem wit_upkeep_4 : (let v := (64#64 : W64); let n := v.toNat % 2 ^ 35; let base := getF (probeState none) (fieldReg 0 oGwProbeBase) 33 0; n ≠ 0 ∧ n % 64 = 0 ∧ base + n ≤ 0x400000000 ∧ (getField (probeState none) 0).probe = none) := by
  decide +kernel
theorem wit_upkeep_5 : (let v := (128#64 : W64); let n := v.toNat % 2 ^ 35; let base := getF (probeState none) (fieldReg 0 oGwProbeBase) 33 0; ¬ (n ≠ 0 ∧ n % 64 = 0 ∧ base + n ≤ 0x400000000 ∧ (getField (probeState none) 0).probe = none)) := by
  decide +kernel
theorem wit_upkeep_6 : (getField (probeState (some 77)) 0).probe = some 77 ∧ overlapping (probeState (some 77)) 0 0x3FFFFFFC0 64 = 1 := by
  decide +kernel
/-- The two refresh slots of a frame without a scrub slot, the scrub slot, and a data slot. -/
theorem wit_upkeep_7 : Refreshes (regsOf on [(modReg oQtzTime, 128)]) 63 ∧ Refreshes (regsOf on [(modReg oQtzTime, 514)]) 63 ∧ ¬ Refreshes (regsOf on [(modReg oQtzTime, 512)]) 63 ∧ ¬ Refreshes (regsOf on [(modReg oQtzTime, 3)]) 63 := by
  unfold Refreshes; decide +kernel

/-- A step token held for channel 63 of link 35; its first bytes: step, level, kind, and the number of the release or slip. -/
def tokenState (step level kind n : Nat) : State :=
  modLink (regsOf { on with stepBase := 0x1000#64 } [(modReg oLnkStepCtl, 1), (modReg oLnkStepPeers, 0xFFFFFFFFFFFF)]) 35 fun x =>
    { x with held := [⟨0, 0, 5, 1, 0, [], true, false⟩, ⟨640000, 0, 63, 1, 0, [natLe 8 step ++ [BitVec.ofNat 8 kind, BitVec.ofNat 8 level, BitVec.ofNat 8 n] ++ List.replicate 21 0#8], true, false⟩] }
def tokState (step level kind n : Nat) : State := setReg (tokenState step level kind n) (modReg oQtzTime) 100#64
def timedState : State := { regsOf on [(modReg oQtzTime, 5000), (modReg oLnkStepCtl, 3), (modReg oLnkStepNext, 5000), (modReg oLnkStepPeriod, 100 * 2 ^ 48 + (2 ^ 40 - 1))] with dom := { on.dom with reached := some 4900 } }
def twinRec (x : Nat) : TwinRec := ⟨3, 0, 9, (List.range 64).map fun i => if i = 63 then x else i, none⟩
def twinState (own peer : List TwinRec) : State :=
  { regsOf { on with stepBase := 4#64 } [(modReg oModTwinCtl, 1), (modReg oModRngSeed, 9), (modReg oModTwinLimits, 2), (modReg oQtzTime, 2000005)] with twin := { own := own, next := 3, peer := peer, last := 5 } }
theorem wit_domain_1 : ∀ a ∈ [(0x1000, 7, 0, 0), (0x1000, 254, 0, 0), (0x1001, 5, 0, 0), (0, 0, 1, 13)], let s := tokState a.1 a.2.1 a.2.2.1 a.2.2.2; (heldHead (getLink s 35) 63).isSome = true ∧ tokenChannel s 63 = true ∧ ((heldHead (getLink s 35) 63).map (·.good)) = some true ∧ ((heldHead (getLink s 35) 63).map fun h => reached s h.rel) = some true := by
  decide +kernel
theorem wit_domain_2 : timedState.dom.reached = some 4900 ∧ getB timedState (modReg oLnkStepCtl) 1 = true ∧ timedState.dom.apply = none ∧ (getReg timedState (modReg oLnkStepNext)).toNat ≤ quartz timedState ∧ 4900 + getF timedState (modReg oLnkStepPeriod) 63 48 ≤ (getReg timedState (modReg oLnkStepNext)).toNat := by
  decide +kernel
theorem wit_domain_3 : getB (regsOf on [(modReg oQtzCtl, 2), (modReg oQtzStatus, 2)]) (modReg oQtzCtl) 1 = true ∧ qtzSrc (regsOf on [(modReg oQtzCtl, 2), (modReg oQtzStatus, 2)]) = 1 := by
  decide +kernel
theorem wit_domain_4 : Admitted on .boot true (modReg oModCkptCtl) 8 := by
  unfold Admitted; decide +kernel
theorem wit_domain_5 : Admitted on .boot true (modReg oModStepSet) 8 ∧ allReset on = true := by
  unfold Admitted; decide +kernel
theorem wit_domain_6 : Admitted (runCore 0 atWord) .boot true (modReg oModStepSet) 8 ∧ allReset (runCore 0 atWord) = false := by
  unfold Admitted; decide +kernel
theorem wit_domain_7 : twinOn (twinState [] []) = true ∧ (twinState [] []).twin.next < (coreStep (twinState [] []) 0).toNat ∧ (twinState [] []).twin.peer = [] := by
  decide +kernel
theorem wit_domain_8 : twinOn (twinState [twinRec 63] []) = true ∧ (twinState [twinRec 63] []).twin.own = [twinRec 63] ∧ (twinState [twinRec 63] []).twin.peer = [] ∧ (∀ f < 64, (twinRec 63).digests.getD f 0 = (twinRec 63).digests.getD f 0) ∧ (twinRec 63).digests.getD 63 0 ≠ (twinRec 99).digests.getD 63 0 ∧ getB (twinState [twinRec 63] []) (modReg oModTwinStatus) 63 = false := by
  decide +kernel
theorem wit_domain_9 : twinOn (twinState [] []) = true ∧ (twinState [] []).twin.last + 1000000 * getF (twinState [] []) (modReg oModTwinLimits) 15 0 ≤ (twinState [] []).ns ∧ getB (twinState [] []) (modReg oModTwinStatus) 63 = false := by
  decide +kernel
/-- This module's write log of step 4 in field 63: a scheduled entry and a background entry, which differs from the partner's. -/
def logEntry (key src row tag : Nat) : List Byte := natLe 4 key ++ [BitVec.ofNat 8 src, 5#8] ++ natLe 2 row ++ natLe 4 0 ++ natLe 4 tag ++ List.replicate 16 0xA5#8
def captState : State :=
  let s := regsOf (twinState [] []) [(modReg oModTwinCtl, bits [(44, 255), (38, 63), (20, 65535), (2, 3), (0, 1)]), (modReg oModTwinStatus, 2 ^ 32), (modReg oModTwinFineStep, 4), (fieldReg 63 oFldTwinBuf, 0x3FFFFFF00)]
  let s := wrBytes s (memBase 63 + 0x3FFFFFF00) (logEntry 7 1 1535 0xABCDE ++ logEntry 0xFFFFFFFF 2 3 0x11)
  { s with twin := { s.twin with logN := 2 } }
def captRec : TwinRec := ⟨4, 0, 9, List.replicate 64 0, some ⟨3, 63, [], [logEntry 0xFFFFFFFF 2 4 0x11, logEntry 7 1 1535 0xABCDE]⟩⟩
theorem wit_domain_10 : (let l := [logEntry 0xFFFFFFFF 2 4 0x11, logEntry 7 1 1535 0xABCDE]; twinOn captState = true ∧ captRec.capture = some ⟨3, 63, [], l⟩ ∧ getF captState (modReg oModTwinCtl) 3 2 = 3 ∧ getB captState (modReg oModTwinStatus) 32 = true ∧ captRec.step = (getReg captState (modReg oModTwinFineStep)).toNat ∧ getF captState (modReg oModTwinCtl) 43 38 = 63 ∧ firstDiff (sortedLog false (ownLog captState 63)) (sortedLog false l) = none ∧ firstDiff (sortedLog true (ownLog captState 63)) (sortedLog true l) = some (logEntry 0xFFFFFFFF 2 3 0x11)) := by
  decide +kernel

/-- The realign line is full since cycle 30, every word with hp, and a hush is asked for. -/
def hushState : State := regsOf (setCore (realState 0) 0 { getCore (realState 0) 0 with hpWord := true, hpHold := true }) [(modReg oClkHushCtl, 1), (fieldReg 63 oFldSlack, 1234)] |> fun s => setGar s 7 { getGar s 7 with hush := true }
def idleState : State := setCore on 0 { mode := .stopped }
/-- The module stands since time 1000 in a hush of the kind given, with the causes given. -/
def stoppedState (kind q : Nat) (causes : List StopCause) : State :=
  let s := regsOf (setCore idleState 0 { mode := .stopped, hpHold := true }) [(modReg oQtzTime, q), (modReg oClkHushStatus, 2 ^ 34 + kind * 2 ^ 32), (fieldReg 5 oFldClkStatus, 255), (fieldReg 5 oFldQtzTime, 7000)]
  { s with clocksOn := false, clk := { s.clk with kind := kind, since := 1000, causes := causes, started := true } }
def askedState (q : Nat) (stop update : Option Asked) : State := let s := regsOf on [(modReg oQtzTime, q), (modReg oClkHushCtl, 1)]; { s with boot := { s.boot with stop := stop, update := update } }
/-- Core 0 and steward 0 are armed for the start pulse at 500. -/
def armedState : State :=
  let s := regsOf (runCore 0 { atWord with mode := .stopped, armed := some 15 }) [(modReg oQtzTime, 600), (coreReg 0 (oCoreEntry + 120), bits [(10, 1), (8, 0), (0, 255)]), (coreReg 0 oCoreTaskImem, bits [(24, 1), (16, 255)])]
  let s := modClu s 0 fun y => { y with armed := some 1023 }
  { s with clocksOn := false, clk := { s.clk with armed := some 500 } }
def srcState : State := let s := regsOf on [(modReg oQtzTime, 2000000007), (modReg oQtzCtl, 6), (modReg oClkRefStatus, 4 + 3)]; { s with clk := { s.clk with aeltoQual := some 7, ptpQual := some 3, aQual := some 5, bQual := some 7, switchDone := 6 } }
theorem wit_hushes_1 : hushState.clocksOn = true ∧ hushState.clk.kind = 0 ∧ hushPoint hushState 7 = true := by
  decide +kernel
theorem wit_hushes_2 : Admitted idleState .boot true (modReg oClkHushCtl) 8 ∧ idleState.clk.kind = 0 ∧ idleOk idleState = true := by
  unfold Admitted; decide +kernel
theorem wit_hushes_3 : Admitted hushState .boot true (modReg oClkHushCtl) 8 ∧ (hushState.clk.kind ≠ 0 ∨ idleOk hushState = false) := by
  unfold Admitted; decide +kernel
theorem wit_hushes_4 : ∀ a ∈ [coreReg 0 (oCoreChan + 504), coreReg 0 (oCoreSlot)], (let s := { idleState with shadow := [(a, 0xFFFFFFFFFFFFFFFF#64)] }; Admitted s .boot true (modReg oClkHushCtl) 8 ∧ s.clk.kind = 0 ∧ idleOk s = true ∧ s.shadow = [(a, 0xFFFFFFFFFFFFFFFF#64)] ∧ 0x200000000000 ≤ a ∧ a < 0x202000000000 ∧ shadowFree s a = true) := by
  unfold Admitted; decide +kernel
theorem wit_hushes_5 : ∀ kind ∈ [1, 2], mayRestart (stoppedState kind 6000 []) = true ∧ (stoppedState kind 6000 []).boot.stop = none ∧ (stoppedState kind 6000 []).boot.update = none ∧ (stoppedState kind 6000 []).clk.causes = [] := by
  decide +kernel
theorem wit_hushes_6 : mayRestart (stoppedState 1 6000 [.brace]) = true ∧ (stoppedState 1 6000 [.brace]).boot.stop = none ∧ (stoppedState 1 6000 [.brace]).boot.update = none ∧ (stoppedState 1 6000 [.brace]).clk.causes ≠ [] := by
  decide +kernel
/-- The synthesizer is not locked; a reference switch runs; no hush stands. -/
theorem wit_hushes_14 : mayRestart (let s := stoppedState 1 6000 []; { s with clk := { s.clk with unready := true } }) = false ∧ mayRestart (let s := stoppedState 2 6000 []; { s with clk := { s.clk with switchTo := some 1 } }) = false ∧ mayRestart on = false := by
  decide +kernel
theorem wit_hushes_7 : (stoppedState 1 1001000 []).clk.kind = 1 ∧ (stoppedState 1 1001000 []).clk.since + 1000000 ≤ (stoppedState 1 1001000 []).ns ∧ getB (stoppedState 1 1001000 []) (modReg oClkHushStatus) 35 = false := by
  decide +kernel
theorem wit_hushes_8 : Admitted (stoppedState 3 6000 [.slip, .slack]) .boot true (modReg oClkHushCtl) 8 ∧ (stoppedState 3 6000 [.slip, .slack]).clk.kind = 3 ∧ (stoppedState 3 6000 [.slip, .slack]).clk.causes ≠ [] ∧ (∀ c ∈ (stoppedState 3 6000 [.slip, .slack]).clk.causes, c = .slack ∨ c = .slip) := by
  unfold Admitted; decide +kernel
theorem wit_hushes_9 : inBrace (askedState 1000000005 (some ⟨3, 5, false, false⟩) none) = false ∧ (5 + 1000000000 ≤ (askedState 1000000005 (some ⟨3, 5, false, false⟩) none).ns) ∧ (askedState 1000000005 (some ⟨3, 5, false, false⟩) none).boot.stop = some ⟨3, 5, false, false⟩ := by
  decide +kernel
theorem wit_hushes_10 : inBrace (askedState 1000000005 none (some ⟨3, 5, false, false⟩)) = false ∧ (5 + 1000000000 ≤ (askedState 1000000005 none (some ⟨3, 5, false, false⟩)).ns) ∧ (askedState 1000000005 none (some ⟨3, 5, false, false⟩)).boot.stop = none ∧ (askedState 1000000005 none (some ⟨3, 5, false, false⟩)).boot.update = some ⟨3, 5, false, false⟩ := by
  decide +kernel
theorem wit_hushes_11 : ∀ p ∈ [(1, 3), (2, 7)], qtzSrc srcState < p.1 ∧ srcEnabled srcState p.1 = true ∧ srcQual srcState p.1 = some p.2 ∧ p.2 + 2000000000 ≤ srcState.ns := by
  decide +kernel
theorem wit_hushes_12 : refQual srcState (getF srcState (modReg oClkRefCtl) 0 0) = some 5 ∧ refSel srcState ≠ getF srcState (modReg oClkRefCtl) 0 0 ∧ srcState.clk.switchTo = none ∧ max 5 srcState.clk.switchDone + 2000000000 ≤ srcState.ns := by
  decide +kernel
theorem wit_hushes_13 : armedState.clk.armed = some 500 ∧ 500 ≤ quartz armedState ∧ armedState.clk.kind = 0 ∧ (getCore armedState 0).armed = some 15 ∧ coreFenced armedState 0 = false ∧ entryOk armedState 0 15 = true ∧ (getCore armedState 0).tasks.length = 4 ∧ (getClu armedState 0).armed = some 1023 ∧ cluFenced armedState 0 = false := by
  decide +kernel

/-- Inputs qualified since the times given, input `sel` selected, a switch under way; CLK_REF_CTL prefers A. -/
def refState (a b : Option Nat) (sel : Nat) (tgt : Option Nat) (hold : Bool) : State :=
  let s := regsOf on [(modReg oQtzTime, 9000), (modReg oClkRefStatus, a.isSome.toNat + 2 * b.isSome.toNat + 4 * sel + 32 * hold.toNat), (modReg oClkRefEvents, 65535)]
  { s with clk := { s.clk with aQual := a, bQual := b, switchTo := tgt } }
def steerState (last : Option Nat) : State := let s := regsOf on [(modReg oQtzTime, 9000), (modReg oQtzSteer, 0xFFFFFFFFFFFFFFFF), (modReg oQtzCtl, 6), (modReg oQtzStatus, 4 + 8)]; { s with clk := { s.clk with lastSteer := last, ptpQual := some 4 } }
theorem wit_clock_events_1 : refQual (refState (some 1) (some 2) 0 none false) 1 ≠ none ∧ refSel (refState (some 1) (some 2) 0 none false) ≠ 1 := by
  decide +kernel
theorem wit_clock_events_2 : ∀ b ∈ [none, some 2], refQual (refState (some 1) b 0 none false) 0 ≠ none ∧ refSel (refState (some 1) b 0 none false) = 0 ∧ (refState (some 1) b 0 none false).clk.switchTo = none := by
  decide +kernel
theorem wit_clock_events_3 : ∀ sel ∈ [0, 1], refQual (refState none (some 2) sel none true) 0 = none ∧ getB (refState none (some 2) sel none true) (modReg oClkRefStatus) 5 = true ∧ (refState none (some 2) sel none true).clk.switchTo = none := by
  decide +kernel
theorem wit_clock_events_4 : (refState (some 1) (some 2) 0 (some 1) true).clk.switchTo = some 1 ∧ refQual (refState (some 1) (some 2) 0 (some 1) true) 1 ≠ none := by
  decide +kernel
theorem wit_clock_events_5 : fieldFenced on 63 = false := by
  decide +kernel
theorem wit_clock_events_6 : (let s := regsOf on [(fieldReg 63 (oFldDroopEn + 24), 2 ^ 63)]; s.clocksOn = true ∧ fieldFenced s 63 = false ∧ cluFenced s (256 * 63 + 255) = false ∧ getB s (fieldReg 63 (oFldDroopEn + 8 * 3)) 63 = true) := by
  decide +kernel
theorem wit_clock_events_7 : Admitted on .boot true (modReg oQtzSet) 8 ∧ allReset on = true ∧ Admitted on .boot true (modReg oClkStart) 8 ∧ quartz on < (5#64).toNat := by
  unfold Admitted; decide +kernel
theorem wit_clock_events_8 : Admitted (runCore 0 atWord) .boot true (modReg oQtzSet) 8 ∧ allReset (runCore 0 atWord) = false ∧ Admitted (runCore 0 atWord) .boot true (modReg oClkStart) 8 := by
  unfold Admitted; decide +kernel
theorem wit_clock_events_9 : ∀ l ∈ [none, some 4904], (steerState l).clk.lastSteer = l ∧ l.getD 0 + 4096 ≤ (steerState l).ns := by
  decide +kernel
theorem wit_clock_events_10 : (steerState (some 4905)).clk.lastSteer = some 4905 ∧ (steerState (some 4905)).ns < 4905 + 4096 := by
  decide +kernel
theorem wit_clock_events_11 : srcQual (steerState none) 2 = none ∧ srcQual (steerState none) 1 ≠ none := by
  decide +kernel
theorem wit_clock_events_12 : (steerState none).clk.steer = none ∧ clockPath 6 27 = [] := by
  decide +kernel
/-- AELTO qualifies at once, IEEE 1588 after 10 s; the source in use is lost, with 1588 below it, and one that is not in use. -/
theorem wit_clock_events_13 : srcQual (steerState none) 2 = none ∧ srcEarned (steerState none) 2 = true ∧ (let s := { steerState none with dom := { on.dom with ptpSince := some 7 }, ns := 10000000007, clk := { on.clk with ptpQual := none } }; srcQual s 1 = none ∧ srcEarned s 1 = true) := by
  decide +kernel
theorem wit_clock_events_14 : (let s := { steerState none with clk := { on.clk with ptpQual := some 4, aeltoQual := some 5 } }; srcQual s 2 ≠ none ∧ qtzSrc s = 2 ∧ bestBelow s 2 = 1 ∧ srcQual s 1 ≠ none ∧ qtzSrc s ≠ 1 ∧ srcEnabled s (qtzSrc s) = true) := by
  decide +kernel

/-- Link l in the state given, enabled, at Quartz time q; version 2.0; its own state. -/
def linkAt (l st q : Nat) (x : LinkSt) : State :=
  modLink (regsOf on [(modReg oQtzTime, q), (linkReg l oLnkStatus, st + 0x20 * 256), (linkReg l oLnkCtl, 9), (linkReg l oLnkEvents, 0xFFFFFFFFFFFFFFFF)]) l fun _ => x
/-- A header of 2.0 from the peer, with its echo at the time given. -/
def headerOf (v20 v12 : Bool) : Header := ⟨0, 0, 1000, 77, 0, none, 0, 0xABCDEF#64, 5#16, 1, 2, 3, 4, v20, v12, [9#8], (List.range 34).map fun i => some (Fin.ofNat 34 i), 0, 0⟩
def sentOf (frame pos lch seq : Nat) (core : Option (Nat × Nat)) (nak : Option Nat) : SentCell := ⟨frame, pos, lch, seq, 3, [List.replicate 32 7#8], core, 2, nak⟩
def heldCell (lch seq : Nat) (good : Bool) : HeldCell := ⟨6400 * 5000, 2, lch, seq, 3, [List.replicate 32 8#8], good, false⟩
def downLink (core : Option (Nat × Nat)) : State := linkAt 35 4 6000 { failing := some 3, sent := [sentOf 1 2 5 6 core none], held := [heldCell 5 1 true, heldCell 5 2 false, heldCell 5 3 true] }
def frameState (slips : List (Nat × Nat)) : State := { regsOf (linkAt 35 3 10005 { missed := 4 }) [(modReg oLnkFrame, 4)] with dom := { on.dom with slips := slips } }
theorem wit_link_control_1 : Admitted (linkAt 35 0 6000 {}) .boot true (linkReg 35 oLnkCtl) 8 ∧ lnkState (linkAt 35 0 6000 {}) 35 = 0 ∧ (1#64).getLsbD 0 = true ∧ (1#64).getLsbD 1 = false ∧ (1#64).getLsbD 2 = false := by
  unfold Admitted; decide +kernel
theorem wit_link_control_2 : (0#64).getLsbD 0 = false := by
  decide +kernel
theorem wit_link_control_3 : ∀ st ∈ [2, 4], Admitted (linkAt 35 st 6000 {}) .boot true (linkReg 35 oLnkCtl) 8 ∧ getB (linkAt 35 st 6000 {}) (linkReg 35 oLnkCtl) 0 = true ∧ lnkState (linkAt 35 st 6000 {}) 35 = st := by
  unfold Admitted; decide +kernel
theorem wit_link_control_4 : ∀ st ∈ [1, 3], Admitted (linkAt 35 st 6000 {}) .boot true (linkReg 35 oLnkCtl) 8 ∧ getB (linkAt 35 st 6000 {}) (linkReg 35 oLnkCtl) 0 = true ∧ 1 ≤ lnkState (linkAt 35 st 6000 {}) 35 ∧ lnkState (linkAt 35 st 6000 {}) 35 ≤ 3 := by
  unfold Admitted; decide +kernel
theorem wit_link_control_5 : (let s := linkAt 35 4 100000007 { downAt := 7 }; lnkState s 35 = 4 ∧ getB s (linkReg 35 oLnkCtl) 3 = true ∧ getB s (linkReg 35 oLnkCtl) 0 = true ∧ (getLink s 35).downAt + 100000000 ≤ s.ns) := by
  decide +kernel
theorem wit_link_control_6 : ∀ step ∈ [4, 5, 6], (let s := linkAt 39 1 200000 { step := step, since := 7 }; lnkState s 39 = 1 ∧ 4 ≤ step ∧ (getLink s 39).step = step ∧ (getLink s 39).since + stepLimit step < s.ns) := by
  decide +kernel
theorem wit_link_control_7 : (let s := linkAt 39 3 6000 { missed := 5 }; lnkState s 39 = 3 ∧ 5 ≤ (getLink s 39).missed) := by
  decide +kernel
theorem wit_link_control_8 : ∀ dead ∈ [0, 6], (let s := setReg (linkAt 39 3 6000 {}) (linkReg 39 oLnkLanes) (BitVec.ofNat 64 dead); lnkState s 39 = 3 ∧ getB s (linkReg 39 oLnkLanes) 33 = false ∧ (∀ k ∈ (getLink s 39).spares, k.tx = true) ∧ 33 ∉ (getLink s 39).waiting ∧ ((goodLanes s 39).length < 33 + (getLink s 39).waiting.length ↔ dead = 6)) := by
  decide +kernel
theorem wit_link_control_9 : (getLink (downLink none) 35).failing = some 3 ∧ NothingInFlight (downLink none) 35 := by
  unfold NothingInFlight; decide +kernel
theorem wit_link_control_10 : (getLink (downLink (some (portCore 35 63, 9))) 35).failing = some 3 := by
  decide +kernel
theorem wit_link_control_11 : (let s := frameState [(6, 3)]; let n := 5; (getReg s (modReg oLnkFrameBase)).toNat ≤ quartz s ∧ (smKeys s.links).Nodup ∧ n = (quartz s - (getReg s (modReg oLnkFrameBase)).toNat) / 2000 - getF s (modReg oLnkSlipStatus) 63 32 ∧ curFrame s < n ∧ frameTime s n ≤ quartz s ∧ (∀ p ∈ s.dom.slips, n < p.1)) := by
  decide +kernel
theorem wit_link_control_12 : lnkState (linkAt 39 3 6000 {}) 39 = 3 := by
  decide +kernel
theorem wit_link_control_13 : lnkState (linkAt 39 1 6000 { step := 5 }) 39 = 1 ∧ (getLink (linkAt 39 1 6000 { step := 5 }) 39).step = 5 ∧ mismatched (linkAt 39 1 6000 { step := 5 }) 39 (headerOf true true) = false ∧ mismatched (setReg (linkAt 39 1 6000 { step := 5 }) (linkReg 39 oLnkPeerExpect) (BitVec.ofNat 64 (2 ^ 63))) 39 (headerOf true true) = true := by
  decide +kernel
theorem wit_link_control_14 : lnkState (linkAt 39 1 6000 { step := 6, frames := 63 }) 39 = 1 ∧ (getLink (linkAt 39 1 6000 { step := 6, frames := 63 }) 39).step = 6 ∧ 63 ≤ (getLink (linkAt 39 1 6000 { step := 6, frames := 63 }) 39).frames := by
  decide +kernel
theorem wit_link_control_15 : (let s := frameState []; let e := nearFrame s 15 7; e ∉ s.dom.slipped ∧ curFrame s < e ∧ (∀ p ∈ s.dom.slips, p.1 ≠ e)) := by
  decide +kernel
theorem wit_link_control_16 : (let s := frameState []; let e := nearFrame s 15 4; e ∉ s.dom.slipped ∧ e ≤ curFrame s) := by
  decide +kernel
theorem wit_link_control_17 : ((frameState [(9, 1), (5, 2)]).dom.slips.find? fun p => decide (frameTime (frameState [(9, 1), (5, 2)]) p.1 ≤ quartz (frameState [(9, 1), (5, 2)]))) = some (5, 2) := by
  decide +kernel

/-- Link 9 is UP; channel 5 sends from port core 63 of the link, tiles 40 to 43, two rows, receipts on channel 9, and counter
31 there has readied two cells more than were sent; the next position of the plan, 1918 of frame 3, is channel 5's. -/
def ringState (step : Nat) (x : LinkSt) : State :=
  let p := portCore 9 63
  let s := regsOf (linkAt 9 3 7800 x) [(linkReg 9 (oLnkPlan + 8 * 959), 2 ^ 30 + 5), (lchReg 9 5, bits [(63, 1), (56, 63), (50, 40), (46, 3), (41, 31), (35, 9), (30, 1)]), (coreReg p (oCoreCtrval + 56), 65539 * 2 ^ 48), (coreReg p oCoreCtrStatus, 7 * 2 ^ 16), (modReg oLnkStepCtl, step), (modReg oLnkStepStatus, 7 * 16)]
  wrBytes s (tileAddr p (32 * 41) 0) (List.replicate 32 1#8 ++ List.replicate 32 2#8)
def ringLink : LinkSt := { chans := smPut {} 5 { sent := 1, seq := 65535 } [] }
def cellOf (empty replay good : Bool) (ack : Option (Fin 16 × Fin 1920)) : Cell := ⟨empty, replay, 5, 2, 3, ack, none, none, [List.replicate 32 6#8], good⟩
def rxState : State := linkAt 9 3 7800 { sent := [sentOf 3 7 5 6 none none, sentOf 3 9 5 7 none (some 5), sentOf 3 1919 5 8 (some (portCore 9 0, 9)) none], held := [heldCell 5 1 true, heldCell 5 2 false] }
/-- Channel 5 of link 9 delivers to receive channel 62 of port core 63. -/
def landLink (l : List HeldCell) : State := regsOf (linkAt 9 3 7800 { held := l }) [(lchReg 9 5, bits [(29, 1), (22, 63), (16, 62)]), (modReg oLnkSlipCtl, 4 * 256)]
def replayState (tries : Nat) : State := linkAt 9 3 8100 { sent := [sentOf 2 7 5 6 none none, { sentOf 2 9 5 7 none (some 6400) with tries := tries }], resv := posNo 3 1911 }
theorem wit_link_cells_1 : PlansPosition (ringState 0 ringLink) 9 3 1918 5 ∧ ReadyCell (ringState 0 ringLink) 9 5 := by
  unfold PlansPosition ReadyCell; decide +kernel
/-- The peer's generation gate is closed. -/
theorem wit_link_cells_2 : PlansPosition (ringState 1 ringLink) 9 3 1918 5 ∧ PlansPosition (regsOf (ringState 1 ringLink) [(modReg oLnkStepStatus, 6 * 16)]) 9 3 1918 5 ∧ ReadyCell (ringState 1 ringLink) 9 5 ∧ ¬ ReadyCell (regsOf (ringState 1 ringLink) [(modReg oLnkStepStatus, 6 * 16)]) 9 5 := by
  unfold PlansPosition ReadyCell; decide +kernel
/-- Position 1918 of frame 3 starts: its cell has all its rows, or waits for one. -/
def preOf (all : Bool) : PreCell := ⟨1, 5, 7, portCore 9 63, 9, 41, [some (List.replicate 32 1#8), if all then some (List.replicate 32 2#8) else none]⟩
def startState (all : Bool) : State := ringState 0 { ringLink with pre := [preOf all], preNext := 2, slots := [(3, 1918, 5)] }
theorem wit_link_cells_9 : ∀ all ∈ [true, false], (startState all).clocksOn = true ∧ getB (startState all) (lchReg 9 5) 62 = false ∧ (getLink (startState all) 9).pre.find? (·.lch == 5) = some (preOf all) ∧ coreFenced (startState all) (preOf all).core = false ∧ (preOf all).rows.all (·.isSome) = all := by
  decide +kernel
theorem wit_link_cells_3 : lnkState rxState 9 = 3 ∧ PlainCell (cellOf false false true none) ∧ (cellOf false false true none).good = true := by
  unfold PlainCell; decide +kernel
theorem wit_link_cells_4 : (cellOf true false true (some (3, 9))).good = true ∧ (cellOf true false true (some (3, 9))).empty = true ∧ (cellOf true false true (some (3, 9))).nak = none ∧ (cellOf true false true (some (3, 9))).slip = none := by
  decide +kernel
theorem wit_link_cells_5 : (cellOf false true true none).good = true ∧ PlainCell { cellOf false true true none with replay := false } ∧ (cellOf false true true none).replay = true := by
  unfold PlainCell; decide +kernel
theorem wit_link_cells_6 : (let s := landLink [heldCell 5 1 true]; heldHead (getLink s 9) 5 = some (heldCell 5 1 true) ∧ reached s (heldCell 5 1 true).rel = true ∧ tokenChannel s 5 = false ∧ canLeave s 9 (heldCell 5 1 true) = true ∧ (∀ j < 64, goesBefore s 9 (heldCell 5 1 true) j = false) ∧ getB s (lchReg 9 5) 29 = true ∧ getB s (lchReg 9 5) 28 = false ∧ coreFenced s (portCore 9 (getF s (lchReg 9 5) 27 22)) = false) := by
  decide +kernel
theorem wit_link_cells_7 : (let s := landLink [heldCell 5 1 false]; heldHead (getLink s 9) 5 = some (heldCell 5 1 false) ∧ reached s (heldCell 5 1 false).rel = true ∧ tokenChannel s 5 = false ∧ (heldCell 5 1 false).good = false ∧ (heldCell 5 1 false).late = false) := by
  decide +kernel
theorem wit_link_cells_8 : ∀ tries ∈ [7, 8], ReplaySlot (replayState tries) 9 3 1919 ∧ (getLink (replayState tries) 9).sent.find? (replayable (posTime (replayState tries) 9 3 1919)) = some { sentOf 2 9 5 7 none (some 6400) with tries := tries } := by
  unfold ReplaySlot; decide +kernel

/-- Service link 7 is up; queue pair 63 of group 31 has an MTU of 1,024 bytes; window 255, of generation 0xABCDEF, opens two
megabytes of field 1 to the group, which the field's table admits; `busy` says that a brace runs. -/
def rdmaState (q : Nat) (busy : Bool) : State :=
  let s := regsOf on [(modReg oQtzTime, q), (linkReg 47 oSvcEthStatus, 3), (linkReg 43 oSvcEthStatus, 3), (modReg (oSvcQg + 248), 2 ^ 63 + 128), (modReg (oSvcRwinCtl + 0x1FE0), bits [(63, 1), (62, 1), (61, 1), (56, 31), (0, 0xABCDEF)]),
    (modReg (oSvcRwinBase + 0x1FE0), 0x400010000), (modReg (oSvcRwinSize + 0x1FE0), 0x200000), (fieldReg 1 oSvcGwwin + 0x3F0, 0x3FFFFF), (fieldReg 1 oSvcGwperm + 0x3F0, 2 ^ 63 + 2 ^ 62 + 2 ^ 61 + 2 ^ 31), (linkReg 47 oSvcRdmaNaks, 65535), (linkReg 47 oSvcEthCtl, 1)]
  { s with host := { s.host with qps := [⟨31, 63, 1024, [], 9, (1, 2)⟩] }, pwr := { s.pwr with brace := if busy then some 5 else none } }
def rkey255 : W32 := 0xFFABCDEF#32
def qpn31 : BitVec 24 := 0x107FF#24
def mgmtState : State := regsOf (rdmaState 200 false) [(modReg oSvcMgmt, 65535 * 2 ^ 16 + 4791), (modReg (oSvcMgmtPeer + 120), 2 ^ 63 + 0xC0A80001), (modReg oCarBootStatus, 5)]
theorem wit_service_1 : (rdmaState 200 false).boot.power = true ∧ svcUp (rdmaState 200 false) 7 = true ∧ qpGroup (rdmaState 200 false) 7 0x10800 = none := by
  decide +kernel
theorem wit_service_2 : qpGroup (rdmaState 200 false) 7 qpn31.toNat = some 31 ∧ windowAddr (rdmaState 200 false) 31 rkey255.toNat 0x1FFFFF 2 true = none ∧ windowAddr (rdmaState 200 false) 31 rkey255.toNat 0x1FFFFF 2 false = none := by
  decide +kernel
theorem wit_service_3 : ∀ w ∈ [true, false], qpGroup (rdmaState 200 false) 7 qpn31.toNat = some 31 ∧ windowAddr (rdmaState 200 false) 31 rkey255.toNat 0x1FFC00 1024 w = some 0x40020FC00 ∧ 1024 ≤ mtuOf (rdmaState 200 false) qpn31.toNat ∧ checkAt (rdmaState 200 false) (.group 31) w (.stacked (0x40020FC00 / fieldBytes) (0x40020FC00 % fieldBytes)) 0x40020FC00 1024 = .ok ∧ gwBusy (rdmaState 200 false) (0x40020FC00 / 0x400000000) 3 = false ∧ gwBusy (rdmaState 200 true) (0x40020FC00 / 0x400000000) 3 = true := by
  decide +kernel
theorem wit_service_4 : mgmtState.boot.power = true ∧ svcUp mgmtState 3 = true ∧ getF mgmtState (modReg oSvcMgmt) 15 0 = 4791 ∧ getB mgmtState (modReg (oSvcMgmtPeer + 8 * 15)) 63 = true ∧ getF mgmtState (modReg (oSvcMgmtPeer + 8 * 15)) 31 0 = 0xC0A80001 ∧ runtimeOn mgmtState = true := by
  decide +kernel
theorem wit_service_5 : ∀ n < 16, ¬ (getB mgmtState (modReg (oSvcMgmtPeer + 8 * n)) 63 = false ∧ getF mgmtState (modReg (oSvcMgmtPeer + 8 * n)) 31 0 = 0xC0A80001) := by
  decide +kernel

/-- The host may use every register; its mailbox 3 has responses up to number `done` and commands up to 5. -/
def hostState (done : Nat) : State :=
  let s := regsOf on [(modReg oSvcRegwin + 0x2F0, 0xFFFFFFFF), (modReg oSvcRegperm + 0x2F0, 2 ^ 63 + 2 ^ 62 + 2 ^ 61 + 1), (mbRspReg 3, 2 ^ 63 + done), (mbCmdReg 3, 5), (modReg oCarBootStatus, 5)]
  { s with host := { s.host with link := true, perst := false, sessions := [none, some ⟨1, 1, 127⟩, none, some ⟨0xABC, 1, 127⟩] } }
theorem wit_host_port_1 : reaches (hostState 5) .host = true ∧ barAddr (hostState 5) false 0x1000 = none := by
  decide +kernel
theorem wit_host_port_2 : reaches (hostState 5) .host = true ∧ barAddr (hostState 5) false 0xFF8 = some (modReg 0x7FF8) ∧ decodeAddr (modReg 0x7FF8) = some (.module 0x7FF8) := by
  decide +kernel
theorem wit_host_port_3 : reaches (hostState 5) .host = true ∧ barAddr (hostState 5) false 0x10 = some (modReg 0x7010) ∧ decodeAddr (modReg 0x7010) = some (.module 0x7010) ∧ Admitted (hostState 5) .host false (modReg 0x7010) 8 := by
  unfold Admitted; decide +kernel
theorem wit_host_port_4 : Admitted (hostState 5) .host true (mbCmdReg 3) 8 ∧ unanswered (hostState 5) 3 ((69#64 : W64).toNat % 128) ≤ 64 := by
  unfold Admitted; decide +kernel
theorem wit_host_port_5 : Admitted (hostState 5) .host true (mbCmdReg 3) 8 ∧ 64 < unanswered (hostState 5) 3 ((70#64 : W64).toNat % 128) := by
  unfold Admitted; decide +kernel
theorem wit_host_port_6 : ∀ done ∈ [5, 127], (hostState done).boot.power = true ∧ (hostState done).host.link = true ∧ sessionOf (hostState done) 3 ≠ none ∧ (hostState done).host.discard.length = 4 ∧ (unanswered (hostState done) 3 (mbTail (hostState done) 3) = 0 ↔ done = 5) := by
  decide +kernel

/-- A mailbox's last slot holds a command, the only one posted; every mailbox has a session of key 0xABC and all features. -/
def posted (s : State) (m op : Nat) (args : List Byte) : State :=
  let s := wrBytes s (mbAddr m 16128) (natLe 2 op ++ natLe 2 0x77 ++ natLe 2 args.length ++ [0#8, 0#8] ++ args)
  let s := regsOf s [(mbRspReg m, 127 + 2 ^ 63), (mbCmdReg m, 0), (modReg oCarBootStatus, 5)]
  { s with host := { s.host with sessions := List.replicate 4 (some ⟨0xABC, 1, 127⟩) }, boot := { s.boot with slots := [some ⟨7, 0, 127, 3, 2⟩, none] } }
def helloArgs (v : Nat) : List Byte := natLe 1 v ++ natLe 1 5 ++ natLe 2 0x123 ++ natLe 16 (2 ^ 127 + 5)
/-- Three allocations of field 63: the session's own, the first two, and a foreign one; the own one at 64 KiB has handle `own`. -/
def allocState : State := { on with host := { on.host with allocs := [⟨63, 0x10000, 0x30000, 3 * 2 ^ 28 + 0xABC * 4 + 3, 4095, 9⟩, ⟨63, 0x80000, 0x10000, 7, 1, 0⟩], seqs := smPut 0 (4096 * 63 + 4095) 9 [] } }
def ownH : Nat := 63 * 2 ^ 58 + 9 * 2 ^ 32 + 4095
def allocArgs (f z size al : Nat) : List Byte := natLe 1 f ++ natLe 1 z ++ natLe 8 size ++ natLe 8 al
def winArgs : List Byte := natLe 8 ownH ++ natLe 8 0x10000 ++ natLe 8 0x20000 ++ natLe 1 31 ++ natLe 1 3
/-- Window 255 is open on the own allocation; `pend` requests to it wait in the gateway. -/
def winState (pend : List Txn) : State :=
  let s := modField (regsOf allocState [(modReg (oSvcRwinCtl + 0x1FE0), 2 ^ 63 + 0xFFFFFF)]) 63 fun x => { x with txns := pend }
  { s with host := { s.host with wins := [⟨255, 63, 0x20000, 0x20000, 31, 15⟩] } }
def pendTxn : Txn := { txnOf 3 true (.rdma 31 47) .input with addr := 0x400000000 * 63 + 0x3FFFF, len := 1 }
def qpState : State := { on with host := { on.host with qps := [⟨31, 63, 512, [], 1, (2, 3)⟩, ⟨31, 62, 512, [], 1, (2, 3)⟩] } }
def logState : State := regsOf on [(modReg oModFaultSeq, 70000 * 2 ^ 32), (modReg oModFaultLog, 0x10000)]
theorem wit_sessions_1 : Posted (posted on 3 1 (helloArgs 3)) 3 0x0001 (· == 20) ∧ (posted on 3 1 (helloArgs 3)).host.sessions.length = 4 ∧ mbArg (posted on 3 1 (helloArgs 3)) 3 0 1 = 3 := by
  unfold Posted; decide +kernel
theorem wit_sessions_2 : Posted (posted on 3 1 (helloArgs 2)) 3 0x0001 (· == 20) ∧ (posted on 3 1 (helloArgs 2)).host.sessions.length = 4 ∧ mbArg (posted on 3 1 (helloArgs 2)) 3 0 1 ≠ 3 := by
  unfold Posted; decide +kernel
theorem wit_sessions_3 : Posted (posted on 3 2 []) 3 0x0002 (· == 0) := by
  unfold Posted; decide +kernel
theorem wit_sessions_4 : (let s := posted allocState 3 0x20 (allocArgs 63 1 0x40000 0x20000); Posted s 3 0x0020 (· == 18) ∧ inBrace s = false ∧ mbArg s 3 0 1 = 63 ∧ mbArg s 3 1 1 ≤ 1 ∧ mbArg s 3 2 8 ≠ 0 ∧ mbArg s 3 2 8 % 65536 = 0 ∧ mbArg s 3 10 8 % 65536 = 0 ∧ isPow2 (mbArg s 3 10 8) = true ∧ place s (allowed 63) 0x40000 0x20000 (ownerOf s 3) = some ⟨63, 0x40000, 0x40000, ownerOf s 3, 0, 0⟩) := by
  unfold Posted; decide +kernel
theorem wit_sessions_5 : (let s := posted allocState 3 0x20 (allocArgs 63 1 0x400000000 0x10000); Posted s 3 0x0020 (· == 18) ∧ inBrace s = false ∧ place s (allowed 63) 0x400000000 0x10000 (ownerOf s 3) = none) := by
  unfold Posted; decide +kernel
theorem wit_sessions_6 : (let s := posted allocState 3 0x21 (natLe 8 ownH); Posted s 3 0x0021 (· == 8) ∧ inBrace s = false ∧ freeStatus s (mbArg s 3 0 8) (ownerOf s 3) = (stOk, some ⟨63, 0x10000, 0x30000, 3 * 2 ^ 28 + 0xABC * 4 + 3, 4095, 9⟩)) := by
  unfold Posted; decide +kernel
theorem wit_sessions_7 : (let s := posted allocState 3 0x21 (natLe 8 (63 * 2 ^ 58 + 1)); Posted s 3 0x0021 (· == 8) ∧ inBrace s = false ∧ (freeStatus s (mbArg s 3 0 8) (ownerOf s 3)).1 = stForeignFree ∧ stForeignFree ≠ stOk) := by
  unfold Posted; decide +kernel
theorem wit_sessions_8 : (let s := posted qpState 3 0x30 (natLe 1 31 ++ natLe 1 63 ++ natLe 1 5 ++ List.replicate 28 1#8); Posted s 3 0x0030 (· == 31) ∧ mbArg s 3 0 1 < 32 ∧ mbArg s 3 1 1 < 64 ∧ 3 ≤ mbArg s 3 2 1 ∧ mbArg s 3 2 1 ≤ 5) := by
  unfold Posted; decide +kernel
theorem wit_sessions_9 : Posted (posted qpState 3 0x31 (natLe 1 31 ++ natLe 1 63)) 3 0x0031 (· == 2) := by
  unfold Posted; decide +kernel
theorem wit_sessions_10 : (let s := posted allocState 3 0x32 winArgs; let a : Alloc := ⟨63, 0x10000, 0x30000, 3 * 2 ^ 28 + 0xABC * 4 + 3, 4095, 9⟩; Posted s 3 0x0032 (· == 26) ∧ mbArg s 3 8 8 = 0x10000 ∧ mbArg s 3 16 8 = 0x20000 ∧ mbArg s 3 24 1 < 32 ∧ mbArg s 3 25 1 ≤ 3 ∧ allocOfHandle s (mbArg s 3 0 8) = some a ∧ rangeStatus s (ownerOf s 3) (memBase 63 + 0x20000) 0x20000 = stOk ∧ fieldFenced s 63 = false ∧ ((List.range 256).find? fun n => !(s.host.wins.any (·.n == n))) = some 0 ∧ freeWindow s (fieldReg 63 oSvcGwwin) 4 = some 0) := by
  unfold Posted; decide +kernel
theorem wit_sessions_11 : (let s := posted (winState []) 3 0x33 [254#8]; Posted s 3 0x0033 (· == 1) ∧ inBrace s = false ∧ winOpen s (mbArg s 3 0 1) = false) := by
  unfold Posted; decide +kernel
theorem wit_sessions_12 : (let s := posted (winState []) 3 0x33 [255#8]; Posted s 3 0x0033 (· == 1) ∧ inBrace s = false ∧ winOpen s (mbArg s 3 0 1) = true ∧ s.host.wins.find? (·.n == 255) = some ⟨255, 63, 0x20000, 0x20000, 31, 15⟩ ∧ overlapping s 63 0x20000 0x20000 = 0) := by
  unfold Posted; decide +kernel
theorem wit_sessions_13 : (let s := posted (winState [pendTxn]) 3 0x33 [255#8]; winOpen s (mbArg s 3 0 1) = true ∧ 0 < overlapping s 63 0x20000 0x20000) := by
  decide +kernel
theorem wit_sessions_14 : (let s := posted on 3 0x40 (natLe 1 63 ++ natLe 2 0xFFFF); Posted s 3 0x0040 (· == 3) ∧ mbArg s 3 0 1 < 64 ∧ mbArg s 3 1 2 = 0xFFFF ∧ fieldFenced s 63 = false ∧ (getField s 63).fenceReq = none) := by
  unfold Posted; decide +kernel
theorem wit_sessions_15 : (let s := posted on 3 0x40 (natLe 1 63 ++ natLe 2 255); Posted s 3 0x0040 (· == 3) ∧ mbArg s 3 1 2 < 256 ∧ cluFenced s 16383 = false ∧ (getClu s 16383).fenceReq = none) := by
  unfold Posted; decide +kernel
theorem wit_sessions_19 : (let s := posted stillState 3 0x40 (natLe 1 63 ++ natLe 2 0xFFFF); Posted s 3 0x0040 (· == 3) ∧ mbArg s 3 0 1 < 64 ∧ mbArg s 3 1 2 = 0xFFFF ∧ fieldFenced s 63 = false ∧ (getField s 63).fenceReq = none ∧ s.clk.kind ≠ 0) := by
  unfold Posted; decide +kernel
theorem wit_sessions_16 : ∀ op ∈ [0, 1], (let s := posted on 3 0x41 [BitVec.ofNat 8 op, 0xEE#8]; Posted s 3 0x0041 (· == 2) ∧ mbArg s 3 0 1 = op) := by
  unfold Posted; decide +kernel
theorem wit_sessions_17 : (let s := posted logState 3 0x50 (natLe 4 69999); Posted s 3 0x0050 (· == 4) ∧ inBrace s = false ∧ mbArg s 3 0 4 + 1 = nextSeq s ∧ fieldFenced s (logAddr s / fieldBytes) = false ∧ isCont (rdBytes s (logAddr s + 32 * (mbArg s 3 0 4 % 65536)) 32) = false) := by
  unfold Posted; decide +kernel
theorem wit_sessions_18 : Posted (posted on 3 0x51 []) 3 0x0051 (· == 0) := by
  unfold Posted; decide +kernel

/-- The cells of a byte string at an address. -/
def cellsAt (a : Nat) (l : List Byte) : List Host.Cell := (l.zipIdx.filter fun p => decide (p.1 ≠ 0#8)).map fun p => (a + p.2, p.1)
/-- SHA-384 of no bytes (FIPS 180-4). -/
def emptyDigest : List Byte := natBe 48 0x38b060a751ac96384cd9327eb1b1e36a21fdb71114be07434c0cc7bf63f6e1da274edebfe76f65fbd51ad2f14898b95b
/-- A runtime image of no payload: version 8, features 127, handover records of version 3 written and 2 read. -/
def rtBytes : List Byte := natLe 4 0x4B434E4C ++ natLe 2 1 ++ [2#8, 0#8] ++ natLe 4 8 ++ natLe 4 0 ++ natLe 4 0 ++ natLe 4 9 ++ natLe 16 127 ++ [3#8, 2#8] ++ natLe 6 0 ++ emptyDigest ++ List.replicate 160 0#8
/-- A program image of no sections for grade 2, every field, and a domain of one module. -/
def progBytes (magic : Nat) : List Byte := natLe 4 magic ++ natLe 2 5 ++ natLe 2 1 ++ natLe 2 0x64 ++ [2#8, 0#8] ++ [0#8, 7#8, 0#8, 7#8] ++ natLe 2 1 ++ natLe 2 1 ++ natLe 2 1 ++ natLe 26 0 ++ emptyDigest ++ natLe 32 0
def stagedState (stage : Nat) (op : Nat) : State := setF (posted { on with mem := cellsAt 0x3000 rtBytes } 3 op (natLe 8 0x3000 ++ natLe 8 256)) (modReg oCarBootStatus) 2 0 stage
def updateState (upd : Nat) (ready : Bool) : State := let s := setF (posted (regsOf on [(modReg oQtzTime, 2000009)]) 3 0x51 []) (modReg oCarUpdateStatus) 2 0 upd; { s with boot := { s.boot with update := some ⟨3, 5, ready, false⟩, takeover := some 9 } }
def loadArgs : List Byte := natLe 8 0x10000 ++ natLe 8 128 ++ natLe 8 99 ++ natLe 8 0 ++ natLe 4 0
def loadState (magic : Nat) : State := let s := posted { on with mem := cellsAt 0x10000 (progBytes magic) } 3 0x12 loadArgs; { s with host := { s.host with allocs := [⟨0, 0x10000, 0x10000, 3 * 2 ^ 28 + 0xABC * 4 + 3, 0, 0⟩] } }
def loadReq : LoadReq := ⟨0x10000, 128, 99, 0, false, false⟩
/-- The program instance 5 of field 63, with an entry for core 0. -/
def progState (args : List Byte) : State := let s := posted (regsOf on [(modReg oQtzTime, 7), (modReg oQtzCtl, 2 ^ 9)]) 3 0x13 args; { s with boot := { s.boot with prog := some ⟨5, 1, false, 0x10000, [(0, 15), (1, 0)], [], [63], 16000, []⟩ } }
theorem wit_programs_1 : (let s := stagedState 3 0x10; inBrace s = false ∧ Posted s 3 0x0010 (· == 16) ∧ stageOf s = 3 ∧ s.boot.slots.length = 2 ∧ ∀ r ∈ s.boot.flog, r.unreported = false) := by
  unfold Posted; decide +kernel
theorem wit_programs_2 : (let s := stagedState 5 0x11; let img := rtOf rtBytes; inBrace s = false ∧ Posted s 3 0x0011 (· == 16) ∧ controlBusy s = false ∧ rtOf (rdBytes s (mbArg s 3 0 8) (mbArg s 3 8 8)) = img ∧ uncovered s img.feats = none ∧ img.reads ≤ 3 ∧ 3 ≤ img.writes ∧ (rtImage s).map (·.writes) = some 3) := by
  unfold Posted; decide +kernel
theorem wit_programs_3 : ∀ u ∈ [2, 3], inBrace (updateState u true) = false ∧ (updateState u true).boot.update = some ⟨3, 5, true, false⟩ ∧ (updateState u true).boot.power = true ∧ updState (updateState u true) = u := by
  decide +kernel
theorem wit_programs_4 : (let s := updateState 3 true; inBrace s = false ∧ s.boot.takeover = some 9 ∧ 9 + 2000000 ≤ s.ns ∧ s.boot.update = some ⟨3, 5, true, false⟩) := by
  decide +kernel
/-- The update of a module whose slot 1 holds the new image, with a handover record of version 3 that has no sections. -/
def handState (valid : Bool) (q : Nat) : State :=
  let s := updateState 3 true
  { s with ns := q, boot := { s.boot with slots := [some ⟨7, 0, 127, 3, 2⟩, some ⟨8, 0, 127, 3, 2⟩], handover := recordBytes 3 7 100 [], handValid := valid } }
theorem wit_programs_9 : recordReadable (handState true 2000009) = true ∧ recordReadable (handState false 2000009) = false ∧ (handState true 2000009).boot.update = some ⟨3, 5, true, false⟩ ∧ updState (handState true 2000009) = 3 ∧ (handState true 2000008).boot.takeover = some 9 ∧ (handState true 2000008).ns < 9 + 2000000 ∧ recordReadable (handState true 2000008) = true := by
  decide +kernel
theorem wit_programs_10 : (let s := setUpd (handState false 2000009) 2; updState s = 2 ∧ s.boot.slots.getD (1 - rtSlot s) none = some ⟨8, 0, 127, 3, 2⟩ ∧ rtImage s = some ⟨7, 0, 127, 3, 2⟩ ∧ inBrace s = false) := by
  decide +kernel
theorem wit_programs_5 : ∀ magic ∈ [0, 0x4B4C4347], (let s := loadState magic; inBrace s = false ∧ Posted s 3 0x0012 (· == 36) ∧ s.clk.kind ≠ 1 ∧ s.clk.kind ≠ 2 ∧ mbArg s 3 32 4 < 4 ∧ controlBusy s = false ∧ (⟨mbArg s 3 0 8, mbArg s 3 8 8, mbArg s 3 16 8, mbArg s 3 24 8, bitOf (mbArg s 3 32 4) 0, bitOf (mbArg s 3 32 4) 1⟩ : LoadReq) = loadReq ∧ loadRange s (ownerOf s 3) loadReq = stOk ∧ loadBlocked s loadReq = none) := by
  unfold Posted; decide +kernel
theorem wit_programs_6 : formatFail (rdBytes (loadState 0) 0x10000 128) = some (1, 0) := by
  decide +kernel
theorem wit_programs_7 : (let s := progState (natLe 4 5); inBrace s = false ∧ (s.boot.prog.map (·.id)) = some 5 ∧ controlBusy s = false ∧ 5 = mbArg s 3 0 4 ∧ Posted s 3 0x0013 (fun n => n == 4 || n == 12) ∧ Posted s 3 0x0013 (· == 4) ∧ s.clk.kind ≠ 1 ∧ s.clk.kind ≠ 2 ∧ (s.boot.prog.map fun p => p.fields.find? (fieldFenced s)) = some none ∧ allReset s = true ∧ mbLen s 3 = 4) := by
  unfold Posted; decide +kernel
theorem wit_programs_8 : (let s := progState (natLe 4 5 ++ natLe 8 5000007); (s.boot.prog.map (·.id)) = some 5 ∧ 5 = mbArg s 3 0 4 ∧ Posted s 3 0x0013 (fun n => n == 4 || n == 12) ∧ allReset s = true ∧ mbLen s 3 = 12 ∧ quartz s + 5000000 ≤ mbArg s 3 4 8) := by
  unfold Posted; decide +kernel
theorem empty_digest : sha384 [] = emptyDigest := by decide +kernel
/-- Where the signature check of R516 (not in the spec) accepts it, the runtime image is valid. -/
theorem rtBytes_valid (h : ∀ k a b, Config.signatureValid k a b = true) (keys : List Byte) : imageValid keys rtBytes 2 0xC0000 = true := by
  have e : (rtBytes.drop 256).take (hdr rtBytes 16 4) = [] := by decide +kernel
  unfold imageValid; simp only [h, e, empty_digest]; decide +kernel
/-- Then it is taken from the staging range. -/
theorem wit_programs_staged (h : ∀ k a b, Config.signatureValid k a b = true) (op : Nat) (stage : Nat) (hs : (op, stage) = (0x10, 3) ∨ (op, stage) = (0x11, 5)) :
    stagedRefusal (stagedState stage op) 0x3000 256 = none := by
  have e : ∀ s, s = stagedState 3 0x10 ∨ s = stagedState 5 0x11 → rdBytes s 0x3000 256 = rtBytes := by
    rintro s (rfl | rfl) <;> decide +kernel
  obtain h1 | h1 := hs <;> cases h1 <;> (unfold stagedRefusal; simp only [e, rtBytes_valid h, true_or, or_true]; decide +kernel)
/-- Where the verifier finds nothing in the image's sections (their layout is not in the spec, R562), it passes steps 1 to 4. -/
theorem wit_programs_load_ok (hv : let s := loadState 0x4B4C4347; let l := progBytes 0x4B4C4347
      verify (writeParts State.reset (imageParts s l) (targetFields l) false) (imageParts s l) (targetFields l) l = none) :
    loadFail (loadState 0x4B4C4347) (progBytes 0x4B4C4347) 0 = none := by
  have e : (progBytes 0x4B4C4347).drop 128 = [] := by decide +kernel
  have h1 : formatFail (progBytes 0x4B4C4347) = none := by unfold formatFail; simp only [e, empty_digest]; decide +kernel
  have h2 : targetFail (loadState 0x4B4C4347) (progBytes 0x4B4C4347) = none := by
    unfold targetFail; generalize Config.gradeTwo = b; cases b <;> decide +kernel
  unfold loadFail; rw [h1, h2]; simp only [hv]; decide +kernel
/-- Where its sections hold nothing, it loads. -/
theorem wit_programs_loads (hp : ∀ l n, Config.imageParts l n = ⟨[], [], [], [], [], [], [], [], none, [], [], none⟩) :
    ∃ t id, loadProgram (fwRead (loadState 0x4B4C4347) 0x10000 128) loadReq (progBytes 0x4B4C4347) = .ok (t, id) := by
  unfold loadProgram imageParts; simp only [hp]; exact ⟨_, _, rfl⟩

/-- The store stands at v (in 10 mV) with gauge g (in µJ); its capacitance is 40,000 µC measured; a brace since 1000, if any. -/
def storeState (v : Nat) (g : Int) (q : Nat) (brace : Option Nat) : State :=
  let s := regsOf (setCore on 0 { mode := .faulted }) [(modReg oPwrHoldup, v), (modReg oPwrHoldupCal, 40000 * 2 ^ 16 + 65535), (modReg oQtzTime, q), (modReg oPwrBraceStatus, 65535 * 2 ^ 48), (fieldReg 63 oGwStatus, 2 ^ 44), (modReg oPwrStatus, 4 * 256)]
  { s with pwr := { s.pwr with gauge := g, brace := brace } }
def sample (mean : Nat) : PowerSample := ⟨0xFFFF#16, 7#16, 8#16, BitVec.ofNat 16 mean, 500#16, 400#16, 5300#16, 1000, 5, true⟩
def rampState : State := let s := regsOf (setCore (stoppedState 3 1500001000 []) 0 { mode := .stopped, hpHold := true }) []; { s with pwr := { s.pwr with ramp := some 1000 } }
def tempState : State := let s := regsOf on [(modReg oCarBootStatus, 5), (modReg oQtzTime, 100000007)]; { s with pwr := { s.pwr with hot := [(5, 100), (63, 7)] } }
def tempsOf (t63 : Nat) : List (BitVec 16) := (List.range 64).map fun i => if i = 63 then BitVec.ofNat 16 t63 else 0xFF00#16
def energyState (coefs : List (Nat × Nat)) : State := modField (regsOf on (coefs ++ [(fieldReg 63 (oFldEnergyTask + 24), 2 ^ 64 - 1), (fieldReg 63 oFldPwrStatus, 0xFF00 * 2 ^ 48)])) 63 fun x => { x with acts := smPut 0 3 100000 (smPut 0 (8 * 41 + 3) 77 []), eFrac := smPut 0 3 36863999 [] }
def elogState : State := let s := regsOf (posted on 3 0x51 []) [(modReg oPwrElog, 65535 * 2 ^ 48 + 0x100000), (modReg oPwrEnergyIn, 5000), (fieldReg 2 oFldEnergy, 7777777)]; { s with pwr := { s.pwr with due := [⟨5, 3, 600⟩, ⟨6, 1, 700⟩], scaleFrom := (1000, 1000) } }
theorem wit_power_1 : ∀ vin ∈ [45999, 63001], (storeState 5300 50000000 2000 none).boot.power = true ∧ inBrace (storeState 5300 50000000 2000 none) = false ∧ ((BitVec.ofNat 16 vin).toNat < 46000 ∨ 63000 < (BitVec.ofNat 16 vin).toNat) := by
  decide +kernel
theorem wit_power_2 : (storeState 5300 50000000 2000 (some 1000)).pwr.brace = some 1000 ∧ (storeState 5300 50000000 2000 (some 1000)).pwr.dipOver = false := by
  decide +kernel
theorem wit_power_3 : (storeState 2000 50000000 2000 (some 1000)).pwr.brace = some 1000 ∧ usable (storeState 2000 50000000 2000 (some 1000)) = 0 := by
  decide +kernel
theorem wit_power_4 : 0 < usable (storeState 5300 50000000 150001000 (some 1000)) ∧ 1000 + 1000000 * getF (storeState 5300 50000000 150001000 (some 1000)) (modReg oPwrBraceCtl) 7 0 ≤ (storeState 5300 50000000 150001000 (some 1000)).ns := by
  decide +kernel
theorem wit_power_5 : on.boot.power = true ∧ 11500 ≤ (11500#16).toInt := by
  decide +kernel
theorem wit_power_6 : (on.boot.power = true) := by
  decide +kernel
theorem wit_power_7 : rampState.pwr.ramp = some 1000 ∧ rampState.clk.kind = 3 ∧ rampState.clk.causes = [] ∧ rampState.clk.aborting = none ∧ 1000 + 1000000 * getF rampState (modReg oPwrShapeCtl) 15 0 ≤ rampState.ns := by
  decide +kernel
theorem wit_power_8 : Admitted on .boot true (modReg oPwrGovReq) 8 := by
  unfold Admitted; decide +kernel
theorem wit_power_9 : (tempsOf 30000).length = 64 ∧ runtimeOn tempState = true ∧ tempState.pwr.hot.find? (·.1 == 63) = some (63, 7) ∧ 7 + 100000000 ≤ tempState.ns ∧ fieldFenced tempState 63 = false ∧ (100 * getF tempState (modReg oPwrThermCtl) 15 8 : Nat) ≤ ((tempsOf 30000).getD 63 0#16).toInt := by
  decide +kernel
theorem wit_power_10 : (BitVec.ofNat 16 (getF (energyState []) (fieldReg 63 oFldPwrStatus) 63 48)).toInt < 4000 := by
  decide +kernel
theorem wit_power_11 : runtimeOn elogState = true ∧ elogState.pwr.due.length = 2 := by
  decide +kernel
/-- An update waits for the end of a brace; another does not. -/
theorem wit_power_12 : ∀ w ∈ [true, false], (let s := { rampState with boot := { rampState.boot with update := some ⟨3, 5, false, w⟩ } }; s.pwr.ramp = some 1000 ∧ s.clk.kind = 3 ∧ s.clk.causes = [] ∧ s.clk.aborting = none ∧ s.boot.update.map (·.waits) = some w) := by
  decide +kernel
/-- Below and at the charge target of 54 V, and on both sides of 59.5 J. -/
theorem wit_power_13 : (let s := storeState 5300 50000000 2000 none; (5300#16).toNat < 5400 ∧ s.pwr.brace = none ∧ s.pwr.gauge < 59500000 ∧ capEnergy (cHigh s) ((5300#16).toNat + 1) ≤ 59500000 ∧ s.pwr.discharge = false) ∧ 59500000 < capEnergy (cHigh (storeState 5300 50000000 2000 none)) 5401 := by
  decide +kernel

def smbState : State := let s := regsOf (posted on 3 0x51 []) [(modReg oPwrInput, 54000 * 2 ^ 48 + 7 * 2 ^ 32 + 8 * 65536), (modReg oPwrEnergyIn, 5999), (modReg oPwrCapCtl, 2 ^ 15 + 24001), (modReg oPwrHoldup, 5 * 2 ^ 32), (modReg oPwrThermStatus, 7 * 2 ^ 48 + 1), (modReg oModFieldFenced, 2 ^ 63)]; { s with smb := ⟨1, 2, 3, 4, 5, 6, 7, 8, 9, 0xABCD, 0x55⟩, pwr := { s.pwr with seenP := true, seenT := true, tIn := -5, tOut := 3000 } }
theorem wit_smbus : smbState.boot.power = true ∧ stageOf smbState ≠ 0 ∧ stageOf smbState ≠ 7 ∧ smbState.pwr.seenP = true ∧ smbState.pwr.seenT = true := by
  decide +kernel

def dogState (n upd q : Nat) : State := let s := regsOf (setCore (stoppedState 0 q []) 0 { mode := .run }) [(modReg oCarUpdateStatus, 65535 * 2 ^ 32 + upd), (modReg (oCarWdogCtl + 16 * n), 65535 * 2 ^ 32 + 2 ^ 63 + 7), (modReg oCarResetInfo, (2 ^ 32 - 1) * 2 ^ 32)]; { s with boot := { s.boot with dogs := (List.replicate 5 none).set n (some 5000) }, clk := { s.clk with causes := [] } }
/-- The stage is given; the byte 5 of slot A is written where `a`, and 0x40005 of slot B where `b`. -/
def stageState (stage : Nat) (a b : Bool) : State := let s := regsOf on [(modReg oCarBootStatus, stage), (modReg oQtzTime, 77)]; { s with boot := { s.boot with flash := (if a then [(5, 1#8)] else []) ++ (if b then [(0x40005, 1#8)] else []) } }
def bring (charged : Bool) : Bringup := ⟨charged, [3], [(4, 5)], [6], [(7, 8), (8, 2)], [(9, 127, 128)], [10], [11]⟩
def frec (name : FaultName) (cont : Bool) : FaultRec := ⟨name, 2, false, false, cont, false, false, 63, 0x77#20, 5#64, 6#64, 0x1234, 63⟩
def faultState (l : List FaultRec) : State := modField (regsOf on [(modReg oModFaultLost, 7)]) 63 fun x => { x with faultQ := l }
def carState : State := { regsOf on [(modReg oCarBootStatus, 5), (modReg oModFaultSeq, (2 ^ 32 - 1) * 2 ^ 32), (modReg oModFaultLog, 0x20000)] with carQ := [frec .linkLost false, frec .meshError false, frec .meshError true] }
def traceState (i : Nat) : State := modField (regsOf on [(fieldReg 63 oFldTraceBuf, 2 ^ 48 + 0x4000), (fieldReg 63 oFldTraceStatus, i)]) 63 fun x => { x with traceQ := (List.range 3).map fun j => ⟨j, 1, 0, List.replicate 32 (BitVec.ofNat 8 (j + 1))⟩ }
theorem wit_boot_1 : on.boot.power = true ∧ inBrace on = false := by
  decide +kernel
theorem wit_boot_2 : ∀ n ∈ [0, 4], Admitted (dogState n 0 6000) .boot true (modReg (oCarWdogKick + 0x10 * n)) 8 ∧ (dogState n 0 6000).boot.dogs.length = 5 ∧ (1#64).getLsbD 0 = true ∧ (dogState n 0 6000).boot.dogs.getD n none ≠ none := by
  unfold Admitted; decide +kernel
theorem wit_boot_3 : ∀ n ∈ [0, 4], ∀ upd ∈ [0, 3], (dogState n upd 6000).boot.power = true ∧ (dogState n upd 6000).boot.dogs.getD n none = some 5000 ∧ 5000 ≤ (dogState n upd 6000).ns ∧ updState (dogState n upd 6000) = upd := by
  decide +kernel
theorem wit_boot_4 : Admitted (dogState 0 0 6000) .boot true (modReg oCarCoreReset) 8 ∧ Admitted (dogState 0 0 6000) .boot true (modReg oHstResetCtl) 8 := by
  unfold Admitted; decide +kernel
theorem wit_boot_5 : (let s := { on with boot := { on.boot with power := false } }; s.boot.power = false ∧ s.boot.mated = true) := by
  decide +kernel
theorem wit_boot_6 : (stageState 0 false false).boot.power = true ∧ (stageState 0 false false).boot.flashHold = false ∧ stageOf (stageState 0 false false) = 0 ∧ (stageState 0 false false).boot.dogs.length = 5 ∧ slotValid (stageState 0 false true) 0 = true ∧ slotValid (stageState 0 true false) 0x40000 = true := by
  decide +kernel
theorem wit_boot_7 : stageOf (stageState 1 true true) = 1 ∧ configValid (stageState 1 true true) = true ∧ (bring false).charged = false ∧ (bring true).charged = true := by
  decide +kernel
theorem wit_boot_8 : (let s := { dogState 0 0 100005000 with boot := { on.boot with starting := some (5000, 3) } }; s.boot.starting = some (5000, 3) ∧ 5000 + 100000000 ≤ s.ns) := by
  decide +kernel
theorem wit_boot_9 : headGroup (getField (faultState [frec .meshError false, frec .meshError true, frec .linkLost false]) 63).faultQ = some (frec .meshError false, [frec .meshError true], [frec .linkLost false]) ∧ suppressible (frec .meshError false) = false ∧ fieldFenced (faultState [frec .meshError false, frec .meshError true, frec .linkLost false]) 63 = false ∧ ((getField (faultState [frec .meshError false, frec .meshError true, frec .linkLost false]) 63).faultQ.filter fun q => !q.cont).length ≤ 64 := by
  decide +kernel
theorem wit_boot_10 : runtimeOn carState = true ∧ headGroup carState.carQ = some (frec .linkLost false, [], carState.carQ.tail) ∧ (logAddr carState + 32 * (nextSeq carState % 65536)) % 32 = 0 ∧ fieldFenced carState ((logAddr carState + 32 * (nextSeq carState % 65536)) / 0x400000000) = false ∧ poisoned carState ((logAddr carState + 32 * (nextSeq carState % 65536)) / 64 * 64) = false := by
  decide +kernel
theorem wit_boot_11 : ∀ i ∈ [0, 2047], (getField (traceState i) 63).traceQ ≠ [] ∧ fieldFenced (traceState i) 63 = false ∧ inBrace (traceState i) = false ∧ getB (traceState i) (fieldReg 63 oGwStatus) 44 = false ∧ getB (traceState i) (fieldReg 63 oFldTraceStatus) 62 = false ∧ ringRecords (traceState i) 63 ≠ 0 := by
  decide +kernel

/-- Core 0 stopped, or running; accumulator bank 3 exact. -/
def openState (mode : CoreMode) : State := wrBytes (regsOf (setCore on 0 { mode := mode }) [(accReg 0 63, 2 ^ 12), (coreReg 0 oCoreRefusals, 2 ^ 64 - 1), (cluReg 0 oCluRefusals, 2 ^ 64 - 1)]) (coreBase 0 + 0x13FF0) ((List.range 16).map fun i => BitVec.ofNat 8 (0x21 + i))
def dbgState : State := let s := regsOf on [(modReg oSvcRegwin + 0x5F0, 0xFFFFFFFF), (modReg oSvcRegperm + 0x5F0, 2 ^ 63 + 2 ^ 62 + 2 ^ 61 + 1)]; { s with boot := { s.boot with flash := [(3, 1#8), (0x3FFFFFE, 9#8)], bypass := true } }
theorem wit_registers_1 : Admitted (openState .run) .boot true (coreReg 0 oCoreCtrMode) 8 ∧ decodeAddr (coreReg 0 oCoreCtrMode) = some (.core 0 (0x18000 + oCoreCtrMode)) ∧ regionOf (.core 0 (0x18000 + oCoreCtrMode)) = some .reg ∧ (regDescOf (coreReg 0 oCoreCtrMode)).isSome = true ∧ (match ownWrite (openState .run) .boot (coreReg 0 oCoreCtrMode) (tidy (coreReg 0 oCoreCtrMode) 5#64) with | none => true | some _ => false) = true ∧ rejects (openState .run) (coreReg 0 oCoreCtrMode) (tidy (coreReg 0 oCoreCtrMode) 5#64) = true := by
  unfold Admitted; decide +kernel
theorem wit_registers_2 : Admitted on .boot true (modReg oPwrCapCtl) 8 ∧ decodeAddr (modReg oPwrCapCtl) = some (.module oPwrCapCtl) ∧ regionOf (.module oPwrCapCtl) = some .reg ∧ (regDescOf (modReg oPwrCapCtl)).isSome = true ∧ (match ownWrite on .boot (modReg oPwrCapCtl) (tidy (modReg oPwrCapCtl) 0x4E20#64) with | none => true | some _ => false) = true ∧ rejects on (modReg oPwrCapCtl) (tidy (modReg oPwrCapCtl) 0x4E20#64) = false ∧ rwhMask (modReg oPwrCapCtl) = 0 := by
  unfold Admitted; decide +kernel
theorem wit_registers_3 : Admitted (openState .run) .boot true (coreReg 0 (oCoreSlot + 504)) 8 ∧ rejects (openState .run) (coreReg 0 (oCoreSlot + 504)) (tidy (coreReg 0 (oCoreSlot + 504)) 8192#64) = false ∧ rwhMask (coreReg 0 (oCoreSlot + 504)) ≠ 0 ∧ atOnce (openState .run) (coreReg 0 (oCoreSlot + 504)) = false := by
  unfold Admitted; decide +kernel
def ringRegs : State := setReg (openState .stopped) (coreReg 0 (oCoreTaskTs + 24)) 0x6000000#64
/-- Counters 28 to 31 of a stopped core, and the enable of its ring 3; a core that leaves HELD in this cycle. -/
theorem wit_registers_10 : ∀ p ∈ [(oCoreCtrval + 56, 0xFFFFFFFFFFFFFFFF#64), (oCoreRing + 24, 0x80014#64)], Admitted ringRegs .boot true (coreReg 0 p.1) 8 ∧ (regDescOf (coreReg 0 p.1)).isSome = true ∧ rejects ringRegs (coreReg 0 p.1) (tidy (coreReg 0 p.1) p.2) = false ∧ rwhMask (coreReg 0 p.1) = 0 ∧ getB ringRegs (coreReg 0 p.1) 19 = false ∧ (tidy (coreReg 0 p.1) p.2).getLsbD 19 = true := by
  unfold Admitted; decide +kernel
theorem wit_registers_11 : ∀ d ∈ [100, 101], (let s := setCore (openState .stopped) 0 { mode := .held, redirect := some (0, d) }; coreOpen s 0 = true ∧ releasedNow s 0 = decide (d = 100)) := by
  decide +kernel
theorem wit_registers_4 : Admitted (openState .stopped) .boot true (coreBase 0 + 0xC000 + 0x1FE0) 32 ∧ Admitted (openState .stopped) .boot true (coreBase 0 + 0x14000 + 0xFE0) 32 ∧ Admitted (openState .stopped) .boot true (stewMem 0 0x3FFC) 4 ∧ Admitted (openState .stopped) .boot true (coreBase 0 + 0x10000 + 0x3FF0) 16 := by
  unfold Admitted; decide +kernel
theorem wit_registers_5 : coreOpen (openState .stopped) 0 = true ∧ coreOpen (openState .run) 0 = false ∧ stewOpen (openState .run) 0 = true ∧ stewOpen (modClu (openState .run) 0 fun y => { y with mode := .run }) 0 = false := by
  decide +kernel
theorem wit_registers_6 : Admitted (openState .stopped) .boot true (coreReg 0 oCoreCtl) 8 ∧ effMode (openState .stopped) 0 = 4 ∧ effMode (openState .run) 0 = 1 ∧ (0xF01#64).getLsbD 0 = true := by
  unfold Admitted; decide +kernel
theorem wit_registers_7 : Admitted (openState .stopped) .boot true (cluReg 0 oCluCtl) 8 ∧ (openState .stopped).clk.kind = 0 ∧ (getClu (openState .stopped) 0).mode = .reset ∧ (0x0FFF0001#64).getLsbD 0 = true ∧ (getClu (modClu (openState .stopped) 0 fun y => { y with mode := .run }) 0).mode = .run := by
  unfold Admitted; decide +kernel
theorem wit_registers_8 : dbgState.boot.power = true ∧ dbgState.boot.driving = false ∧ allReset dbgState = true ∧ allReset (openState .run) = false := by
  decide +kernel
theorem wit_registers_9 : Admitted dbgState .debug false (modReg oModIdent) 8 ∧ decodeAddr (modReg oModIdent) = some (.module oModIdent) := by
  unfold Admitted; decide +kernel

end Sys2Proof.Tests
end

section
/-! Proofs of the arithmetic chapter: a step of products added to an exact accumulator block (R117 to R121). -/
namespace Sys2Proof.Machine
open Sys2Proof

/-! ## One product -/

/-- What a product adds to A of an exact element (R120): a finite one its value over the LSB weight, rounded down; NaN and
infinities nothing (R122). -/
def lsbFloor (wbase : Int) : FVal → Int
  | .fin sg m e => floorAt sg m e (wbase - 32)
  | _ => 0

theorem floorAt_zero (sg : Bool) (e w : Int) : floorAt sg 0 e w = 0 := by
  simp [floorAt]

theorem addProduct_fst (wbase : Int) (st : W96 × Nat × Bool × Bool) (v : FVal) :
    (addProduct wbase st v).1 = st.1 + BitVec.ofInt 96 (lsbFloor wbase v) := by
  cases v with
  | nan => simp [addProduct, lsbFloor]
  | inf sg => simp [addProduct, lsbFloor]
  | fin sg m e =>
    by_cases hm : m = 0
    · simp [addProduct, lsbFloor, hm, floorAt_zero]
    · have hge : (e - (wbase - 32) ≥ 0) = (wbase - 32 ≤ e) := propext Int.sub_nonneg
      simp only [addProduct, lsbFloor, floorAt, hm, ↓reduceIte, hge, Int.neg_sub]

/-- The order of the products does not matter to A: it grows by their sum (R123). -/
theorem foldl_addProduct_fst (wbase : Int) (ps : List FVal) (st : W96 × Nat × Bool × Bool) :
    (ps.foldl (addProduct wbase) st).1 = st.1 + BitVec.ofInt 96 (ps.map (lsbFloor wbase)).sum := by
  induction ps generalizing st with
  | nil => simp
  | cons v ps ih =>
    rw [List.foldl_cons, ih, addProduct_fst, List.map_cons, List.sum_cons, BitVec.ofInt_add, BitVec.add_assoc]

/-! ## One element -/

theorem getReg_wrBytes (s : State) (a : Nat) (l : List Byte) (r : Nat) : getReg (wrBytes s a l) r = getReg s r := by
  rw [wrBytes_eq]
  rfl

theorem rdBytes_wrBytes_append (s : State) (a : Nat) (l l' : List Byte) : rdBytes (wrBytes s a (l ++ l')) a l.length = l := by
  apply List.ext_getElem (length_rdBytes _ _ _)
  intro i _ hi
  rw [getElem_rdBytes, rdByte_wrBytes_in _ _ _ _ (by rw [List.length_append]; omega), List.getElem_append_left hi]

theorem accA_congr {s t : State} {c b e : Nat} (h : ∀ i, i < 12 → rdByte t (accAddr c b e + i) = rdByte s (accAddr c b e + i)) :
    accA t c b e = accA s c b e := by
  unfold accA rdNat
  rw [rdBytes_congr fun a ha hb => by simpa [Nat.add_sub_cancel' ha] using h (a - accAddr c b e) (by omega)]

@[simp] theorem getReg_setAccExact (s : State) (c b e : Nat) (a : W96) (sp r : Nat) :
    getReg (setAccExact s c b e a sp) r = getReg s r := getReg_wrBytes _ _ _ _

theorem rdByte_setAccExact_out (s : State) (c b e : Nat) (a : W96) (sp j : Nat)
    (h : j < accAddr c b e ∨ accAddr c b e + 13 ≤ j) : rdByte (setAccExact s c b e a sp) j = rdByte s j :=
  rdByte_wrBytes_out _ _ _ _ (by simpa [length_natLe] using h)

@[simp] theorem accA_setAccExact_self (s : State) (c b e : Nat) (a : W96) (sp : Nat) :
    accA (setAccExact s c b e a sp) c b e = a := by
  have hrd := rdBytes_wrBytes_append s (accAddr c b e) (natLe 12 a.toNat) [BitVec.ofNat 8 (sp % 8)]
  rw [length_natLe] at hrd
  unfold accA rdNat setAccExact
  rw [hrd, leNat_natLe]
  exact BitVec.eq_of_toNat_eq (by simp [a.isLt])

theorem accA_setAccExact_ne (s : State) (c b : Nat) {e d : Nat} (a : W96) (sp : Nat) (h : d ≠ e) :
    accA (setAccExact s c b e a sp) c b d = accA s c b d :=
  accA_congr fun i hi => rdByte_setAccExact_out _ _ _ _ _ _ _ (by unfold accAddr; omega)

/-- A step into one element of an exact block sets that element, its A grown by the floors of its products. -/
theorem addElem_of_exact {s : State} {c b : Nat} (h : accExact s c b = true) (e : Nat) (ps : List FVal) :
    ∃ sp, (addElem s c b e ps).1 =
      setAccExact s c b e (accA s c b e + BitVec.ofInt 96 (ps.map (lsbFloor (accWb s c b))).sum) sp := by
  refine ⟨(ps.foldl (addProduct (accWb s c b)) (accA s c b e, accSpec s c b e, false, false)).2.1, ?_⟩
  simp only [addElem, h, ↓reduceIte, foldl_addProduct_fst]

/-! ## The sixteen elements of a block -/

/-- The elements below n of a block take one step's products, `ps e` into element e; with the window flags raised on the way. -/
def addElems (s : State) (c b : Nat) (ps : Nat → List FVal) (n : Nat) : State × Bool × Bool :=
  (List.range n).foldl (fun acc e =>
    let r := addElem acc.1 c b e (ps e)
    (r.1, acc.2.1 || r.2.1, acc.2.2 || r.2.2)) (s, false, false)

theorem addElems_succ_fst (s : State) (c b : Nat) (ps : Nat → List FVal) (n : Nat) :
    (addElems s c b ps (n + 1)).1 = (addElem (addElems s c b ps n).1 c b n (ps n)).1 := by
  simp [addElems, List.range_succ]

/-- From s to t the elements of an exact block below n have grown by the floors of their products, and nothing else has changed in
memory and registers. -/
structure ElemsAdded (s t : State) (c b : Nat) (ps : Nat → List FVal) (n : Nat) : Prop where
  regs : ∀ r, getReg t r = getReg s r
  outside : SameMemOutside s t (accAddr c b 0) 256
  grown : ∀ e, e < n → accA t c b e = accA s c b e + BitVec.ofInt 96 ((ps e).map (lsbFloor (accWb s c b))).sum
  same : ∀ e, n ≤ e → accA t c b e = accA s c b e

theorem accExact_congr {s t : State} {c b : Nat} (h : getReg t (accReg c b) = getReg s (accReg c b)) :
    accExact t c b = accExact s c b := by
  simp only [accExact, getB, h]

theorem accWb_congr {s t : State} {c b : Nat} (h : getReg t (accReg c b) = getReg s (accReg c b)) :
    accWb t c b = accWb s c b := by
  simp only [accWb, getF, h]

theorem ElemsAdded.step {s t : State} {c b n : Nat} {ps : Nat → List FVal} (hx : accExact s c b = true) (hn : n < 16)
    (h : ElemsAdded s t c b ps n) : ElemsAdded s (addElem t c b n (ps n)).1 c b ps (n + 1) := by
  obtain ⟨sp, heq⟩ := addElem_of_exact ((accExact_congr (h.regs _)).trans hx) n (ps n)
  rw [accWb_congr (h.regs _), h.same n (Nat.le_refl _)] at heq
  rw [heq]
  constructor
  case regs => exact fun r => (getReg_setAccExact ..).trans (h.regs r)
  case outside =>
    intro a ha
    rw [rdByte_setAccExact_out _ _ _ _ _ _ _ (by unfold accAddr at *; omega), h.outside a ha]
  case grown =>
    intro e he
    rcases Nat.lt_succ_iff_lt_or_eq.1 he with hlt | rfl
    · rw [accA_setAccExact_ne _ _ _ _ _ (Nat.ne_of_lt hlt), h.grown e hlt]
    · exact accA_setAccExact_self ..
  case same =>
    intro e he
    rw [accA_setAccExact_ne _ _ _ _ _ (by omega), h.same e (by omega)]

theorem elemsAdded_addElems {s : State} {c b : Nat} (ps : Nat → List FVal) (hx : accExact s c b = true) (n : Nat) (hn : n ≤ 16) :
    ElemsAdded s (addElems s c b ps n).1 c b ps n := by
  induction n with
  | zero => exact ⟨fun _ => rfl, fun _ _ => rfl, fun _ h => absurd h (Nat.not_lt_zero _), fun _ _ => rfl⟩
  | succ n ih =>
    rw [addElems_succ_fst]
    exact (ih (by omega)).step hx (by omega)

/-! ## The flags and the term count of a block (R120, R121) -/

/-- Raises bit i of a register where a condition holds, as a block's window flags are raised. -/
def raiseBit (s : State) (a i : Nat) (on : Bool) : State := if on then setF s a i i 1 else s

@[simp] theorem rdByte_raiseBit (s : State) (a i : Nat) (on : Bool) (j : Nat) : rdByte (raiseBit s a i on) j = rdByte s j := by
  cases on
  · rfl
  · exact rdByte_setF ..

theorem getReg_raiseBit_ne (s : State) {a r : Nat} (i : Nat) (on : Bool) (h : r ≠ a) : getReg (raiseBit s a i on) r = getReg s r := by
  cases on
  · rfl
  · exact getReg_setF_ne _ _ _ _ h

theorem getF_raiseBit_other (s : State) (a i hi lo : Nat) (on : Bool) (hi64 : i < 64) (h : i < lo ∨ hi < i) :
    getF (raiseBit s a i on) a hi lo = getF s a hi lo := by
  cases on
  · rfl
  · exact getF_setF_other _ _ _ _ _ _ _ (Nat.le_refl _) hi64 h

theorem addTerms_eq (s : State) (c b n : Nat) :
    addTerms s c b n =
      let t := min (getF s (accReg c b) 40 16 + n) 0x1FFFFFF
      let u := setF s (accReg c b) 40 16 t
      raiseBit u (accReg c b) 15 (accExact u c b && decide (t > 2 ^ 24)) := rfl

@[simp] theorem rdByte_addTerms (s : State) (c b n j : Nat) : rdByte (addTerms s c b n) j = rdByte s j := by
  simp [addTerms_eq]

theorem getReg_addTerms_ne (s : State) {c b r : Nat} (n : Nat) (h : r ≠ accReg c b) : getReg (addTerms s c b n) r = getReg s r := by
  rw [addTerms_eq, getReg_raiseBit_ne _ _ _ h, getReg_setF_ne _ _ _ _ h]

/-- The mode and the window base stand below the flags and the count. -/
theorem getF_addTerms_low (s : State) (c b n hi lo : Nat) (h : hi < 15) :
    getF (addTerms s c b n) (accReg c b) hi lo = getF s (accReg c b) hi lo := by
  rw [addTerms_eq, getF_raiseBit_other _ _ _ _ _ _ (by decide) (.inr h),
    getF_setF_other _ _ _ _ _ _ _ (by decide) (by decide) (.inr (by omega))]

theorem getF_addTerms_count (s : State) (c b n : Nat) :
    getF (addTerms s c b n) (accReg c b) 40 16 = min (getF s (accReg c b) 40 16 + n) (2 ^ 25 - 1) := by
  rw [addTerms_eq, getF_raiseBit_other _ _ _ _ _ _ (by decide) (.inl (by decide)),
    getF_setF_self _ _ _ _ _ (by decide) (by decide)]
  exact Nat.mod_eq_of_lt (by omega)

/-! ## A step into a block -/

/-- A step adds to the elements, raises the window flags and counts the terms. -/
theorem accStep_eq (s : State) (c b cnt : Nat) (ps : Nat → Nat → List FVal) :
    accStep s c b cnt ps =
      let r := addElems s c b (fun e => ps (e / 4) (e % 4)) 16
      addTerms (raiseBit (raiseBit r.1 (accReg c b) 14 r.2.1) (accReg c b) 15 r.2.2) c b cnt := by
  unfold accStep addElems raiseBit
  rfl

/-- What follows the elements in a step touches no memory. -/
theorem rdByte_accStep (s : State) (c b cnt : Nat) (ps : Nat → Nat → List FVal) (j : Nat) :
    rdByte (accStep s c b cnt ps) j = rdByte (addElems s c b (fun e => ps (e / 4) (e % 4)) 16).1 j := by
  simp [accStep_eq]

theorem accA_accStep (s : State) (c b cnt : Nat) (ps : Nat → Nat → List FVal) (e : Nat) :
    accA (accStep s c b cnt ps) c b e = accA (addElems s c b (fun e => ps (e / 4) (e % 4)) 16).1 c b e :=
  accA_congr fun _ _ => rdByte_accStep ..

section ExactStep
variable {s : State} {c b : Nat} (cnt : Nat) (ps : Nat → Nat → List FVal) (hx : accExact s c b = true)
include hx

theorem sameMemOutside_accStep : SameMemOutside s (accStep s c b cnt ps) (accAddr c b 0) 256 := fun a ha =>
  (rdByte_accStep ..).trans ((elemsAdded_addElems _ hx 16 (Nat.le_refl _)).outside a ha)

theorem sameRegsBut_accStep : SameRegsBut s (accStep s c b cnt ps) (· = accReg c b) := by
  intro r hr
  rw [accStep_eq, getReg_addTerms_ne _ _ hr, getReg_raiseBit_ne _ _ _ hr, getReg_raiseBit_ne _ _ _ hr]
  exact (elemsAdded_addElems _ hx 16 (Nat.le_refl _)).regs r

theorem getF_accStep_low (hi lo : Nat) (h : hi < 14) :
    getF (accStep s c b cnt ps) (accReg c b) hi lo = getF s (accReg c b) hi lo := by
  rw [accStep_eq, getF_addTerms_low _ _ _ _ _ _ (by omega), getF_raiseBit_other _ _ _ _ _ _ (by decide) (.inr (by omega)),
    getF_raiseBit_other _ _ _ _ _ _ (by decide) (.inr h)]
  simp only [getF, (elemsAdded_addElems _ hx 16 (Nat.le_refl _)).regs]

theorem accExact_accStep : accExact (accStep s c b cnt ps) c b = true := by
  rw [accExact, getB_eq, getF_accStep_low cnt ps hx 12 12 (by decide), ← getB_eq]
  exact hx

theorem accWb_accStep : accWb (accStep s c b cnt ps) c b = accWb s c b := by
  unfold accWb
  rw [getF_accStep_low cnt ps hx 7 0 (by decide)]

theorem terms_accStep :
    getF (accStep s c b cnt ps) (accReg c b) 40 16 = min (getF s (accReg c b) 40 16 + cnt) (2 ^ 25 - 1) := by
  rw [accStep_eq, getF_addTerms_count, getF_raiseBit_other _ _ _ _ _ _ (by decide) (.inl (by decide)),
    getF_raiseBit_other _ _ _ _ _ _ (by decide) (.inl (by decide))]
  simp only [getF, (elemsAdded_addElems _ hx 16 (Nat.le_refl _)).regs]

theorem accA_accStep_of_exact {i n : Nat} (hi : i < 4) (hn : n < 4) :
    accA (accStep s c b cnt ps) c b (4 * i + n) =
      accA s c b (4 * i + n) + BitVec.ofInt 96 ((ps i n).map (lsbFloor (accWb s c b))).sum := by
  have hrow : (4 * i + n) / 4 = i := by omega
  have hcol : (4 * i + n) % 4 = n := by omega
  rw [accA_accStep, (elemsAdded_addElems _ hx 16 (Nat.le_refl _)).grown _ (by omega), hrow, hcol]

end ExactStep

/-- Settles O24: element by element the step adds the floors of its products, and what follows touches only the block's
register, in its flags and its term count. -/
theorem exactAccumulation : Obligations.ExactAccumulation := by
  unfold Obligations.ExactAccumulation
  intro s c b cnt ps _ hx _
  refine ⟨sameMemOutside_accStep cnt ps hx, sameRegsBut_accStep cnt ps hx, accExact_accStep cnt ps hx, accWb_accStep cnt ps hx,
    terms_accStep cnt ps hx, fun i n hi hn => ?_⟩
  refine (accA_accStep_of_exact cnt ps hx hi hn).trans
    (congrArg (fun l : List Int => accA s c b (4 * i + n) + BitVec.ofInt 96 l.sum) (List.map_congr_left fun v _ => ?_))
  cases v <;> rfl

end Sys2Proof.Machine
end
